-- ==== Sys2Proof/Word.lean ====
section
/-! DEFINITION. The byte of the link (spec/09 R147) and its plainest reading as a number. -/

namespace Sys2Proof

/-- One byte of the serial link. -/
abbrev Byte := BitVec 8

/-- The byte whose value is `n` modulo 256. -/
abbrev Byte.ofNat (n : Nat) : Byte := BitVec.ofNat 8 n

end Sys2Proof
end

