-- ==== Sys2Proof/Syntax.lean ====
section
/-! DEFINITION. The commands of the part, one constructor for each row of spec/opcode_table.json, with the
field records that requests carry (R150).  Numbers are kept as numbers; whether a field fits its encoded width is
`Instr.WellFormed`'s matter, whether its value is in range is its owner's (R150). -/

namespace Sys2Proof

/-- A flow position (run, offset) (R2). -/
structure Pos where
  run : Nat
  off : Nat
  deriving DecidableEq, Repr

/-- The eleven style fields of Table 1-2, each present or absent (R6, R14).  The alignment is its code. -/
structure StyleFields where
  font : Option Nat
  ink : Option Nat
  letterSpacing : Option Int
  spaceNatural : Option Nat
  spaceMin : Option Nat
  spaceMax : Option Nat
  lineHeight : Option Nat
  firstIndent : Option Nat
  paragraphGap : Option Nat
  alignment : Option Nat
  hyphenGlyph : Option Nat
  deriving DecidableEq, Repr

/-- A run record (Table 1-1).  `unknown` is a record whose kind code is none of the seven (R6). -/
inductive RunRecord where
  | word (glyphs : List Nat) (continues : Bool) (hyphens : List Nat)
  | space
  | hardBreak
  | paraEnd
  | stylePush (id : Nat)
  | stylePop
  | stylePatch (fields : StyleFields)
  | unknown (code : Nat)
  deriving DecidableEq, Repr

/-- A font header (R25).  The name tag is its eight bytes. -/
structure FontHeader where
  nameTag : List Byte
  glyphCount : Nat
  ascent : Nat
  descent : Nat
  defaultAdvance : Nat
  firstBank : Nat
  lastBank : Nat
  deriving DecidableEq, Repr

/-- A glyph record without its index (R26): the coverage values stand row by row, left to right. -/
structure GlyphRec where
  advance : Nat
  xBearing : Int
  topOffset : Int
  width : Nat
  height : Nat
  coverage : List Nat
  deriving DecidableEq, Repr

/-- A tile rectangle as a request gives it: first and last column, first and last row (R116). -/
structure TileRect where
  col0 : Nat
  col1 : Nat
  row0 : Nat
  row1 : Nat
  deriving DecidableEq, Repr

/-- A note's kind as a request gives it; `unknown` is a kind code that names none (R82). -/
inductive NoteKindField where
  | fill (shade : Nat)
  | underline (thickness : Nat)
  | box
  | unknown (code : Nat)
  deriving DecidableEq, Repr

/-- An optional stored field in NOTE_CHANGE: omitted, given as clear, or given (R84). -/
inductive Change where
  | keep
  | clear
  | set (value : Nat)
  deriving DecidableEq, Repr

/-- The fields of NOTE_ADD, each present or absent (R83, Table 5-1).  The margin side is its code. -/
structure NoteFields where
  id : Option Nat
  flow : Option Nat
  start : Option Pos
  stop : Option Pos
  kind : Option NoteKindField
  ink : Option Nat
  side : Option Nat
  marginGlyph : Option Nat
  marginStyle : Option Nat
  marginText : Option (List Nat)
  deriving DecidableEq, Repr

/-- The changes of NOTE_CHANGE (R84). -/
structure NoteChanges where
  flow : Option Nat
  start : Option Pos
  stop : Option Pos
  kind : Option NoteKindField
  ink : Option Nat
  side : Option Nat
  marginGlyph : Change
  marginStyle : Change
  marginText : Option (List Nat)
  deriving DecidableEq, Repr

/-- The fields of COMPOSE (R43). -/
structure ComposeFields where
  tag : Nat
  flow : Nat
  start : Pos
  style : Nat
  x : Nat
  y : Nat
  w : Nat
  h : Nat
  marginLeft : Nat
  marginRight : Nat
  deriving DecidableEq, Repr

/-- A request with its fields, one constructor for each kind of Table 9-3. -/
inductive Request where
  | status
  | reset
  | set (id value : Nat)
  | get (id : Nat)
  | activate
  | standby
  | setTemperature (degrees : Int)
  | readNotices (max : Nat)
  | clearNotices
  | flowAppend (slot : Nat) (records : List RunRecord)
  | flowClear (slot : Nat)
  | flowInfo (slot : Nat)
  | styleDefine (id : Nat) (fields : StyleFields)
  | styleRead (id : Nat)
  | fontBegin (slot : Nat) (header : FontHeader)
  | glyphPut (slot : Nat) (start : Option Nat) (glyphs : List GlyphRec)
  | fontEnd (slot : Nat)
  | fontDrop (slot : Nat)
  | fontLock (slot : Nat)
  | fontCheck (slot : Nat)
  | fontList
  | glyphGet (slot index : Nat)
  | protectRaise (boundary : Nat)
  | storeWipe
  | compose (fields : ComposeFields)
  | composeAbort (jobTag : Nat)
  | frameRelease (slot gen : Nat)
  | frameInfo (slot gen firstLine : Nat)
  | locate (slot gen x y : Nat)
  | noteAdd (note : NoteFields)
  | noteChange (id : Nat) (changes : NoteChanges)
  | noteRemove (id : Nat)
  | noteList (afterId : Nat)
  | commit (mode cls : Nat) (rect : Option TileRect)
  | refresh (mode cls : Nat) (rect : Option TileRect)
  | queueInfo
  deriving DecidableEq, Repr

/-- What the host does at the serial port while it sends (R147): the eight clock cycles of a byte, one clock cycle with
the inbound bit it carries, or a release of the select line. -/
inductive PortEvent where
  | byte (b : Byte)
  | clock (bit : Bool)
  | release
  deriving DecidableEq, Repr

/-- The commands.  A request command carries the host's tag and the fields of its kind; an event command carries the
lane or the level it concerns; the two receive commands carry what the host does at the port. -/
inductive Instr where
  | frameReceived (events : List PortEvent)
  | handOver
  | replySent
  | status (tag : Byte)
  | reset (tag : Byte)
  | set (tag : Byte) (id value : Nat)
  | get (tag : Byte) (id : Nat)
  | activate (tag : Byte)
  | standby (tag : Byte)
  | setTemperature (tag : Byte) (degrees : Int)
  | readNotices (tag : Byte) (max : Nat)
  | clearNotices (tag : Byte)
  | flowAppend (tag : Byte) (slot : Nat) (records : List RunRecord)
  | flowClear (tag : Byte) (slot : Nat)
  | flowInfo (tag : Byte) (slot : Nat)
  | styleDefine (tag : Byte) (id : Nat) (fields : StyleFields)
  | styleRead (tag : Byte) (id : Nat)
  | fontBegin (tag : Byte) (slot : Nat) (header : FontHeader)
  | glyphPut (tag : Byte) (slot : Nat) (start : Option Nat) (glyphs : List GlyphRec)
  | fontEnd (tag : Byte) (slot : Nat)
  | fontEndComplete
  | fontDrop (tag : Byte) (slot : Nat)
  | fontDropComplete
  | fontLock (tag : Byte) (slot : Nat)
  | fontLockComplete
  | fontCheck (tag : Byte) (slot : Nat)
  | fontCheckComplete
  | fontList (tag : Byte)
  | glyphGet (tag : Byte) (slot index : Nat)
  | protectRaise (tag : Byte) (boundary : Nat)
  | protectRaiseComplete
  | storeWipe (tag : Byte)
  | storeWipeComplete
  | writeEntryProgrammed
  | compose (tag : Byte) (fields : ComposeFields)
  | composeAbort (tag : Byte) (jobTag : Nat)
  | frameRelease (tag : Byte) (slot gen : Nat)
  | frameInfo (tag : Byte) (slot gen firstLine : Nat)
  | locate (tag : Byte) (slot gen x y : Nat)
  | noteAdd (tag : Byte) (note : NoteFields)
  | noteChange (tag : Byte) (id : Nat) (changes : NoteChanges)
  | noteRemove (tag : Byte) (id : Nat)
  | noteList (tag : Byte) (afterId : Nat)
  | commit (tag : Byte) (mode cls : Nat) (rect : Option TileRect)
  | refresh (tag : Byte) (mode cls : Nat) (rect : Option TileRect)
  | queueInfo (tag : Byte)
  | rasterPathGrant
  | replayEnd
  | pagePaperFill
  | lineSet
  | glyphSpanDrawn
  | overlayLineDone
  | retintLineRedrawn
  | latchTile
  | panelFrameBoundary
  | laneFrame (lane : Nat)
  | dispatchScan
  | updateCompletion (lane : Nat)
  | deghostExpiry
  | temperatureStale
  | resetPin
  | resetPinRelease
  | startupScanEnd
  | abandonedFrame (second : Byte)
  | driveHoldLevelChange (asserted : Bool)
  deriving DecidableEq, Repr

end Sys2Proof
end

