-- ==== Sys2Proof/Decode.lean ====
section
/-! DEFINITION. The command that a word spells by the bits of the opcode table.  The table gives no row any bits or
fields, so no word spells a command; a request's own bytes are read by `Machine.readRequest` (R150). -/

namespace Sys2Proof

/-- The command read from a word of `nbits` bits: none, since no row has bits. -/
def decodeTableWord (_nbits _w : Nat) : Option Instr := none

end Sys2Proof
end

