-- ==== Sys2Proof/Config.lean ====
section
/-! DEFINITION. The sizes that the manual fixes for the part.  No behaviour of this part is left to an implementation
and no value after a command is undefined, so there is no free value here. -/

namespace Sys2Proof.Config

/-- Run-record places shared by the four flow slots (R1). -/
abbrev flowPlaces : Nat := 16384

/-- Entries of the request queue (R154). -/
abbrev requestQueueMax : Nat := 8

/-- Places of the outbound reply queue (R152). -/
abbrev replyPlaces : Nat := 8

/-- The greatest payload of a frame (Table 9-1). -/
abbrev maxPayload : Nat := 1024

/-- Banks of the Font Store (chapter 2). -/
abbrev fontBanks : Nat := 32

/-- Slots of the font table (R24). -/
abbrev fontSlots : Nat := 16

/-- Entries of the font write queue (R29). -/
abbrev writeQueueMax : Nat := 2

/-- Entries of the compose job queue (R44). -/
abbrev composeQueueMax : Nat := 4

/-- Frame record slots (R50). -/
abbrev frameSlots : Nat := 8

/-- Lines of a line table (R52). -/
abbrev maxLines : Nat := 256

/-- Notes of the note table (R81). -/
abbrev maxNotes : Nat := 128

/-- Records of the update queue (R122). -/
abbrev updateQueueMax : Nat := 24

/-- Lanes (R133). -/
abbrev laneCount : Nat := 8

/-- Records of the notice buffer (R157). -/
abbrev noticeMax : Nat := 64

/-- Pixels along a tile's edge (R102). -/
abbrev tileEdge : Nat := 64

/-- The stale limit of the temperature in milliseconds, 600 s (R138). -/
abbrev staleLimitMs : Nat := 600000

end Sys2Proof.Config
end

