-- ==== Sys2Proof/Machine/State.lean ====
section
/-! DEFINITION. The state of the part as plain data, block by block (Table 0-1), and the machine right after reset. -/

namespace Sys2Proof.Machine

/-! ### Styles (chapter 1) -/

/-- The four alignments of Table 1-2, in order of their codes. -/
inductive Align where
  | justify | start | center | finish
  deriving DecidableEq, Repr

/-- A style record: the eleven fields of Table 1-2. -/
structure Style where
  font : Nat
  ink : Nat
  letterSpacing : Int
  spaceNatural : Nat
  spaceMin : Nat
  spaceMax : Nat
  lineHeight : Nat
  firstIndent : Nat
  paragraphGap : Nat
  alignment : Align
  hyphenGlyph : Nat
  deriving DecidableEq, Repr

/-- The default style of Table 1-2 (R12). -/
def Style.default : Style where
  font := 0
  ink := 0
  letterSpacing := 0
  spaceNatural := 64
  spaceMin := 48
  spaceMax := 112
  lineHeight := 32
  firstIndent := 0
  paragraphGap := 0
  alignment := .justify
  hyphenGlyph := 45

inductive StackMode where
  | lenient | strict
  deriving DecidableEq, Repr

/-- The style stack (R16): `flow` lists the occupied levels 0..depth − 1 from level 0 upward. -/
structure StyleStack where
  flow : List Style
  level6 : Option Style
  level7 : Option Style
  ignored : Nat
  mode : StackMode
  deriving DecidableEq, Repr

/-- All eight levels empty and the count 0 (R16). -/
def StyleStack.empty : StyleStack where
  flow := []
  level6 := none
  level7 := none
  ignored := 0
  mode := .lenient

/-- The two failure reasons of a STRICT stack (R17, R18). -/
inductive FailReason where
  | styleOverflow | styleUnderflow
  deriving DecidableEq, Repr

/-! ### Notes (chapter 5) -/

inductive NoteKind where
  | fill (shade : Nat)
  | underline (thickness : Nat)
  | box
  deriving DecidableEq, Repr

inductive Side where
  | none | left | right
  deriving DecidableEq, Repr

/-- A note record (Table 5-1). -/
structure Note where
  id : Nat
  flow : Nat
  start : Pos
  stop : Pos
  kind : NoteKind
  ink : Nat
  side : Side
  marginGlyph : Option Nat
  marginStyle : Option Nat
  marginText : List Nat
  deriving DecidableEq, Repr

/-! ### The Font Store (chapter 2) -/

inductive FontState where
  | empty | loading | ready | damaged
  deriving DecidableEq, Repr

/-- A slot of the font table (R24). -/
structure FontSlot where
  state : FontState
  locked : Bool
  busy : Bool
  header : Option FontHeader
  cursor : Nat
  used : Nat
  deriving DecidableEq, Repr

def FontSlot.vacant : FontSlot where
  state := .empty
  locked := false
  busy := false
  header := none
  cursor := 0
  used := 0

/-- An entry of the write queue (R29). -/
inductive WriteEntry where
  | header (slot : Nat) (header : FontHeader)
  | glyphs (slot : Nat) (records : List (Nat × GlyphRec))
  deriving DecidableEq, Repr

/-- The store operation in progress (R27).  FONT_END counts the write entries it still waits for (R32); FONT_DROP keeps
the bank range being erased (R34). -/
inductive StoreOp where
  | fontEnd (slot waits : Nat)
  | fontDrop (slot firstBank lastBank : Nat)
  | fontLock (slot : Nat)
  | fontCheck (slot : Nat)
  | protectRaise (value : Nat)
  | storeWipe
  deriving DecidableEq, Repr

/-- What the banks keep of one font (R23). -/
structure NvFont where
  header : FontHeader
  glyphs : List (Nat × GlyphRec)
  endMark : Bool
  dropped : Bool
  checksum : Nat
  locked : Bool
  deriving DecidableEq, Repr

/-- The nonvolatile memory (R23): the font found in the banks for each slot, and the control record. -/
structure NvStore where
  fonts : List (Option NvFont)
  boundary : Nat
  wipeMark : Bool
  deriving DecidableEq, Repr

/-- A part as delivered: all banks free, no wipe mark, boundary 0 (R23). -/
def NvStore.delivered : NvStore where
  fonts := List.replicate Config.fontSlots none
  boundary := 0
  wipeMark := false

/-! ### Composition (chapters 3 and 4) -/

/-- A rectangle of panel pixels. -/
structure PRect where
  x : Nat
  y : Nat
  w : Nat
  h : Nat
  deriving DecidableEq, Repr

/-- The six line endings of R67, in order of their codes. -/
inductive Ending where
  | fit | hyphen | split | hardBreak | paraEnd | limit
  deriving DecidableEq, Repr

/-- A line record (R77). -/
structure LineRec where
  index : Nat
  start : Pos
  stop : Pos
  ending : Ending
  top : Nat
  height : Nat
  baseline : Nat
  offset : Nat
  finalWidth : Nat
  looseLeftover : Nat
  gapCount : Nat
  hyphenated : Bool
  overfull : Bool
  loose : Bool
  paraLast : Bool
  glyphCount : Nat
  deriving DecidableEq, Repr

/-- The answer of a glyph lookup (R41): a real glyph, or the fallback box with its advance (R42). -/
inductive Answer where
  | real (glyph : GlyphRec)
  | fallback (advance : Nat)
  deriving DecidableEq, Repr

/-- A glyph placed on a line (R60, R61).  The hyphen glyph has no position of its own (R87). -/
structure Placed where
  pos : Option Pos
  answer : Answer
  contribution : Nat
  ink : Nat
  lineHeight : Nat
  deriving DecidableEq, Repr

/-- A gap of a line with the sizes of the style in force at its SPACE record (R62). -/
structure Gap where
  pos : Pos
  natural : Nat
  min : Nat
  max : Nat
  deriving DecidableEq, Repr

/-- What a line holds, in setting order (R75). -/
inductive Item where
  | glyph (g : Placed)
  | gap (g : Gap)
  deriving DecidableEq, Repr

/-- An item with its pen x and the pen after it (R75). -/
structure Laid where
  item : Item
  pen : Nat
  next : Nat
  deriving DecidableEq, Repr

/-- An entry of a glyph list handed to the Raster Unit (R76): `glyph` is the coverage to draw, or absent for a
fallback box; the rectangle starts at (col, row). -/
structure DrawEntry where
  glyph : Option GlyphRec
  col : Int
  row : Int
  width : Nat
  height : Nat
  ink : Nat
  deriving DecidableEq, Repr

/-- The working line (R60) once set: what it holds, the glyph list, the record to append, and where the next line begins. -/
structure WorkingLine where
  start : Pos
  items : List Item
  minimal : Nat
  natural : Nat
  styles : List Style
  stack : StyleStack
  entries : List DrawEntry
  record : LineRec
  nextTop : Nat
  deriving DecidableEq, Repr

/-- One drawing operation of a line's overlay (R104, R110): a note's piece, or the margin item of a note. -/
inductive LineOp where
  | piece (n : Note)
  | item (n : Note)
  deriving DecidableEq, Repr

/-- The overlay of a line, begun (R95, R98 steps 3 and 4): the line as recomputed for it, the style stack that margin items
are placed on, the operations still to be drawn, and what the drawn ones counted. -/
structure LineWork where
  laid : List Laid
  stack : StyleStack
  ops : List LineOp
  missing : Nat
  suppressed : Nat
  deriving DecidableEq, Repr

/-- A compose job as accepted (R43). -/
structure JobSpec where
  tag : Nat
  flow : Nat
  start : Pos
  style : Nat
  rect : PRect
  marginLeft : Nat
  marginRight : Nat
  deriving DecidableEq, Repr

/-- The place of the started job within its passes (R48, R51, R53): which step of the job comes next.
`drawing line span` has the spans below `span` drawn; `overlay line` has the lines below `line` overlaid. -/
inductive Phase where
  | replay
  | fill
  | lines
  | drawing (line : WorkingLine) (span : Nat)
  | overlay (line : Nat)
  deriving DecidableEq, Repr

/-- The started compose job (R44, R49).  `work` is the overlay of the line under way in the OVERLAY pass, once begun (R95). -/
structure Job where
  spec : JobSpec
  running : Bool
  limit : Nat
  slot : Nat
  gen : Nat
  spanLength : Nat
  paper : Nat
  stack : StyleStack
  phase : Phase
  work : Option LineWork
  current : Pos
  nextTop : Nat
  stop : Pos
  missing : Nat
  suppressed : Nat
  overlapped : Nat
  evicted : Option (Nat × Nat)
  abortAsked : Bool
  deriving DecidableEq, Repr

inductive FrameState where
  | free | opened | live
  deriving DecidableEq, Repr

/-- A frame record slot (R50).  `stack` is the start stack copy, made at the end of REPLAY (R22); before it the model keeps the
empty stack there (log entry 30).  `late` and `retint` are ranges of line indices lo..hi (R93, R96); `snapshot` is the
overlay snapshot, present once taken (R95). -/
structure FrameRec where
  state : FrameState
  gen : Nat
  flow : Nat
  start : Pos
  stop : Pos
  rect : PRect
  marginLeft : Nat
  marginRight : Nat
  stack : StyleStack
  lines : List LineRec
  late : Option (Nat × Nat)
  retint : Option (Nat × Nat)
  snapshot : Option (List Note)
  deriving DecidableEq, Repr

/-- A FREE slot of the given generation: it holds no record (R50). -/
def FrameRec.vacant (gen : Nat) : FrameRec where
  state := .free
  gen := gen
  flow := 0
  start := ⟨0, 0⟩
  stop := ⟨0, 0⟩
  rect := ⟨0, 0, 0, 0⟩
  marginLeft := 0
  marginRight := 0
  stack := StyleStack.empty
  lines := []
  late := none
  retint := none
  snapshot := none

/-- How far the redrawing of a retint's current line has come (R98): its band not filled yet; its glyph list with the spans
below `span` drawn; its overlay begun. -/
inductive RetintStage where
  | paper
  | glyphs (entries : List DrawEntry) (span : Nat)
  | overlay (work : LineWork)
  deriving DecidableEq, Repr

/-- A RUNNING retint job (R97, R98, R100): `frame` is the record it redraws as it stood at the start, so that a line
under way can be finished after a release. -/
structure RetintRun where
  lo : Nat
  hi : Nat
  current : Nat
  stage : RetintStage
  spanLength : Nat
  paper : Nat
  redrawn : Nat
  suppressed : Nat
  released : Bool
  frame : FrameRec
  deriving DecidableEq, Repr

/-- An entry of the retint queue (R45): WAITING when `run` is absent. -/
structure RetintEntry where
  slot : Nat
  gen : Nat
  run : Option RetintRun
  deriving DecidableEq, Repr

/-- Waveform modes in ascending order of strength (R114). -/
inductive Mode where
  | swift | text | clean
  deriving DecidableEq, Repr

inductive UpdateClass where
  | prompt | normal
  deriving DecidableEq, Repr

inductive Origin where
  | commit | refresh | followUp | refine | deghost
  deriving DecidableEq, Repr

/-- An accepted commit (R116). -/
structure CommitSpec where
  mode : Mode
  cls : UpdateClass
  rect : TileRect
  deriving DecidableEq, Repr

/-- The commit slot (R46).  While LATCHING it holds the place of the next tile in the latch's order, the copied set and
the count of deferred tiles (R117, R118). -/
inductive CommitSlot where
  | empty
  | pending (c : CommitSpec)
  | latching (c : CommitSpec) (next : Nat) (copied : List Nat) (deferred : Nat)
  deriving DecidableEq, Repr

/-- The holder of the raster path (R47). -/
inductive PathHolder where
  | free | composeJob | retintJob | latch
  deriving DecidableEq, Repr

/-- What the Composition Controller owns (Table 0-1). -/
structure Composition where
  jobs : List JobSpec
  started : Option Job
  retints : List RetintEntry
  commit : CommitSlot
  path : PathHolder
  frames : List FrameRec
  liveOrder : List Nat
  deriving DecidableEq, Repr

/-! ### Planes (chapter 6) -/

/-- A plane: the pixels whose level is not 15, as (key, level), keys strictly rising. -/
abbrev Plane := List (Nat × Nat)

structure Planes where
  w : Plane
  t : Plane
  g : Plane
  deriving DecidableEq, Repr

/-! ### Tiles, updates and lanes (chapters 7 and 8) -/

inductive TileState where
  | idle | flight | flightStale
  deriving DecidableEq, Repr

/-- A tile record (R114). -/
structure TileRec where
  state : TileState
  lane : Option Nat
  workDirty : Bool
  targetNewer : Bool
  deferredMode : Option Mode
  deferredPrompt : Bool
  inkAge : Nat
  glassKnown : Bool
  deriving DecidableEq, Repr

/-- A tile record as the plane fill makes it (R114). -/
def TileRec.fresh : TileRec where
  state := .idle
  lane := none
  workDirty := false
  targetNewer := false
  deferredMode := none
  deferredPrompt := false
  inkAge := 0
  glassKnown := false

/-- An update record (R122). -/
structure UpdateRec where
  id : Nat
  rect : TileRect
  mode : Mode
  cls : UpdateClass
  origin : Origin
  merged : Nat
  deriving DecidableEq, Repr

/-- What the Update Scheduler owns besides the commit's latch (Table 0-1). -/
structure Scheduler where
  tiles : List TileRec
  queue : List UpdateRec
  nextId : Nat
  deghostMs : Nat
  deriving DecidableEq, Repr

inductive Band where
  | b0 | b1 | b2 | b3 | b4
  deriving DecidableEq, Repr

/-- The fields of a DRIVING lane (R133); `framesDue` counts the boundaries whose frame it has not taken yet. -/
structure Drive where
  id : Nat
  rect : TileRect
  requested : Mode
  driven : Mode
  cls : UpdateClass
  origin : Origin
  merged : Nat
  escalated : Bool
  degraded : Bool
  band : Band
  frames : Nat
  framesLeft : Nat
  framesDue : Nat
  deriving DecidableEq, Repr

inductive Lane where
  | free
  | driving (d : Drive)
  deriving DecidableEq, Repr

/-- What the Lane Controller owns (Table 0-1). -/
structure LaneControl where
  lanes : List Lane
  temperature : Nat
  stale : Bool
  staleMs : Nat
  staleStopped : Bool
  frameCount : Nat
  boundaryMs : Nat
  scanDue : Bool
  deriving DecidableEq, Repr

/-! ### Settings and power (chapter 11) -/

inductive Power where
  | starting | standby | active
  deriving DecidableEq, Repr

inductive ResetCause where
  | pin | request
  deriving DecidableEq, Repr

/-- An applied value with its optional pending value (R163). -/
structure Setting where
  applied : Nat
  pending : Option Nat
  deriving DecidableEq, Repr

structure Settings where
  values : List Setting
  power : Power
  lastActive : Option (Nat × Nat)
  cause : ResetCause
  deriving DecidableEq, Repr

/-- The three classes of settings beside LIVE, and the states of R163. -/
inductive SettingClass where
  | standby | jobBoundary | dispatchBoundary | live
  deriving DecidableEq, Repr

inductive SettingState where
  | applied | awaiting | held
  deriving DecidableEq, Repr

/-! ### Notices (chapter 10) -/

inductive JobState where
  | queued | running | suspended
  deriving DecidableEq, Repr

inductive Pass where
  | replay | lines
  deriving DecidableEq, Repr

/-- What a started job's ending notice names besides its counts (R53, R54, R55). -/
structure StartedInfo where
  slot : Nat
  gen : Nat
  overlapped : Nat
  evicted : Option (Nat × Nat)
  deriving DecidableEq, Repr

/-- The kind fields of the nine notice kinds (Table 10-1). -/
inductive NoticeBody where
  | started (cause : ResetCause) (ready damaged empty erased : Nat) (wiped : Bool) (boundary temperature : Nat) (stale : Bool)
  | composeDone (tag slot gen : Nat) (stop : Pos) (lineCount looseLines overfullLines hyphenatedLines missing ignored overlapped : Nat)
      (evicted : Option (Nat × Nat)) (suppressed : Nat)
  | composeAborted (tag : Nat) (found : JobState) (lines : Nat) (resume : Pos) (info : Option StartedInfo)
  | composeFailed (tag : Nat) (reason : FailReason) (at_ : Pos) (pass : Pass) (lines : Nat) (info : StartedInfo)
  | retintDone (slot gen lo hi redrawn suppressed : Nat) (released : Bool)
  | commitDone (mode : Mode) (cls : UpdateClass) (rect : TileRect) (copied deferred updateId : Nat)
  | updateDone (id : Nat) (rect : TileRect) (requested driven : Mode) (cls : UpdateClass) (origin : Origin) (merged : Nat)
      (escalated degraded : Bool) (band : Band) (frames staleTiles followUp refine : Nat)
  | fontDamaged (slot : Nat) (nameTag : List Byte) (locked : Bool) (recorded computed : Nat)
  | temperatureStale (temperature : Nat) (band : Band)
  deriving DecidableEq, Repr

/-- A notice record (R158). -/
structure Notice where
  seq : Nat
  lost : Bool
  stamp : Option Nat
  body : NoticeBody
  deriving DecidableEq, Repr

structure NoticeBuffer where
  buffer : List Notice
  nextSeq : Nat
  lost : Bool
  deriving DecidableEq, Repr

/-! ### The link (chapter 9) -/

/-- The receive hunt (R149).  `kept` are the bytes from the first length byte on, in order. -/
inductive Hunt where
  | hunt
  | length (first : Option Byte)
  | body (len : Nat) (kept : List Byte)
  | check (kept : List Byte) (high : Option Byte)
  deriving DecidableEq, Repr

/-- A request that has arrived whole (R154). -/
structure RawRequest where
  tag : Byte
  kind : Byte
  payload : List Byte
  deriving DecidableEq, Repr

/-- The status codes of Table 9-2, in order of their values. -/
inductive Status where
  | ok | busy | full | notFound | exists_ | protected_ | locked | notActive | notInStandby | badArgument | malformed
  | unknownKind | overrun | starting
  deriving DecidableEq, Repr

/-- One slot's part of FONT_LIST (R36): header facts when not EMPTY, cursor and used bytes when LOADING, the recorded
checksum when READY or DAMAGED. -/
structure FontListEntry where
  state : FontState
  locked : Bool
  busy : Bool
  header : Option (List Byte × Nat × Nat × Nat × Nat)
  upload : Option (Nat × Nat)
  checksum : Option Nat
  deriving DecidableEq, Repr

/-- The kind of a store operation as FONT_LIST reports it (R36). -/
inductive OpKind where
  | fontEnd | fontDrop | fontLock | fontCheck | protectRaise | storeWipe
  deriving DecidableEq, Repr

/-- Whether a retint job of a record is absent, WAITING or RUNNING (R58). -/
inductive RetintState where
  | waiting | running | absent
  deriving DecidableEq, Repr

/-- The hit kinds of LOCATE (R79). -/
inductive Hit where
  | glyph | gap | hyphen | before | after
  deriving DecidableEq, Repr

inductive CommitState where
  | empty | pending | latching
  deriving DecidableEq, Repr

/-- The fields of STATUS (R155). -/
structure StatusInfo where
  power : Power
  queuedJobs : Nat
  started : Option (Nat × JobState)
  waitingRetints : Nat
  runningRetints : Nat
  path : PathHolder
  commit : CommitState
  queueDepth : Nat
  busyLanes : Nat
  temperature : Nat
  band : Band
  stale : Bool
  noticeCount : Nat
  driveHold : Bool
  frameCount : Nat
  requestQueue : Nat
  reservedPlaces : Nat
  filledPlaces : Nat
  deriving DecidableEq, Repr

/-- The fields of FRAME_INFO (R58). -/
structure FrameInfo where
  flow : Nat
  start : Pos
  stop : Pos
  rect : PRect
  marginLeft : Nat
  marginRight : Nat
  lineCount : Nat
  retint : Option (Nat × Nat)
  retintState : RetintState
  flowDepth : Nat
  ignored : Nat
  mode : StackMode
  lines : List LineRec
  deriving DecidableEq, Repr

/-- The fields of QUEUE_INFO (R132). -/
structure QueueInfo where
  records : List (UpdateRec × Bool)
  nextId : Nat
  lanes : List (Option (Nat × TileRect))
  policy : Nat
  driveHold : Bool
  deghostInterval : Nat
  deghostSeconds : Nat
  commit : CommitState
  flight : Nat
  flightStale : Nat
  workDirty : Nat
  targetNewer : Nat
  glassUnknown : Nat
  inked : Nat
  deriving DecidableEq, Repr

/-- The fields a reply carries after its status byte (R151), one constructor for each form the owners name. -/
inductive ReplyFields where
  | none
  | status (i : StatusInfo)
  | setting (id value : Nat) (state : SettingState)
  | settingInfo (id : Nat) (cls : SettingClass) (applied : Nat) (pending : Option Nat) (state : SettingState)
  | activated (width height period : Nat) (filled : Bool)
  | standbyBusy (jobs retints commit queue lanes : Bool)
  | temperature (degrees : Nat) (band : Band)
  | notices (records : List Notice) (count : Nat) (lost : Bool)
  | cleared (discarded : Nat) (lost : Bool)
  | freePlaces (n : Nat)
  | flowLength (n : Nat)
  | flowCleared (released free : Nat)
  | flowInfo (length free : Nat)
  | style (s : Style)
  | capacity (bytes : Nat)
  | glyphPut (cursor free : Nat)
  | fontEnd (checksum glyphs : Nat)
  | fontLock (checksum : Nat)
  | fontCheck (isMatch : Bool) (recorded computed : Nat)
  | fontList (boundary : Nat) (op : Option OpKind) (slots : List FontListEntry)
  | glyph (index : Nat) (record : GlyphRec)
  | boundary (banks : Nat)
  | compose (tag : Nat) (rect : PRect)
  | jobState (s : JobState)
  | frame (i : FrameInfo)
  | located (line : Nat) (start stop : Pos) (hit : Hit) (at_ : Pos)
  | reached (records : Nat)
  | noteChanged (note : Note) (records : Nat)
  | noteList (count : Nat) (notes : List Note) (more : Bool)
  | tileRect (rect : TileRect)
  | refreshed (rect : Option TileRect) (id : Nat)
  | queue (i : QueueInfo)
  deriving DecidableEq, Repr

/-- A reply (R151). -/
structure Reply where
  tag : Byte
  kind : Byte
  status : Status
  fields : ReplyFields
  deriving DecidableEq, Repr

/-- The outbound byte of a byte exchange (R153): the fill byte, or the next byte of the reply being sent. -/
inductive Outgoing where
  | fill | reply
  deriving DecidableEq, Repr

/-- The serial port (R147): the inbound bits of the unfinished exchange, first bit first, and the outbound byte that has
begun and is not given whole. -/
structure Port where
  bits : List Bool
  out : Option Outgoing
  deriving DecidableEq, Repr

/-- No exchange under way (R147). -/
def Port.idle : Port := ⟨[], none⟩

/-- What the Link Unit owns (Table 0-1).  A place is RESERVED, FILLED or FREE (R152): `reserved` counts the first,
`filled` lists the second in fill order, and the rest of the eight are FREE.  `sent` counts the bytes given of the reply at
the head of `filled` (R153).  `givenBits`, `given` and `lastSent` are the model's view of the outbound line (log entry 16):
the bits given at the clocks of the last command that clocked the port, the bytes they gave whole, and the last reply given
whole. -/
structure LinkUnit where
  hunt : Hunt
  requests : List RawRequest
  reserved : Nat
  filled : List Reply
  resetAwaits : Bool
  port : Port
  sent : Nat
  givenBits : List Bool
  given : List Byte
  lastSent : Option (List Byte)
  deriving DecidableEq, Repr

/-- A font request's reply that is not filled yet: its answer is absent while undecided (R27). -/
structure HeldReply where
  tag : Byte
  kind : Byte
  answer : Option (Status × ReplyFields)
  deriving DecidableEq, Repr

/-- What the Font Store owns (Table 0-1). -/
structure FontStore where
  slots : List FontSlot
  writeQueue : List WriteEntry
  op : Option StoreOp
  held : List HeldReply
  nv : NvStore
  deriving DecidableEq, Repr

/-- The input pins (R129, R171). -/
structure Pins where
  resetHeld : Bool
  driveHold : Bool
  deriving DecidableEq, Repr

/-! ### The machine -/

/-- The state of the part, and the queue of commands that wait. -/
structure State where
  pins : Pins
  link : LinkUnit
  flows : List (List RunRecord)
  styles : List Style
  store : FontStore
  comp : Composition
  notes : List Note
  planes : Planes
  sched : Scheduler
  lanes : LaneControl
  notices : NoticeBuffer
  settings : Settings
  pending : List Instr
  deriving DecidableEq, Repr

/-- No meaning of this part stops with a fault: what the part will not do it answers with a status code (Table 9-2). -/
inductive Fault where
  deriving DecidableEq, Repr

/-- The reasons for which a command has no meaning. -/
inductive Refusal where
  /-- Raised by an arm of `exec` whose command has no meaning yet (safe: nothing can be proved of a run that stops).
  No arm raises it. -/
  | notModelled (mnemonic : String)
  deriving DecidableEq, Repr

/-- What a command answers. -/
abbrev Result := Host.Outcome State Fault Refusal

/-! ### The values after reset, block by block -/

def LinkUnit.reset : LinkUnit where
  hunt := .hunt
  requests := []
  reserved := 0
  filled := []
  resetAwaits := false
  port := Port.idle
  sent := 0
  givenBits := []
  given := []
  lastSent := none

/-- The font store after a reset takes effect, before the start-up scan (R24, R27, R29): every slot EMPTY. -/
def FontStore.reset (nv : NvStore) : FontStore where
  slots := List.replicate Config.fontSlots FontSlot.vacant
  writeQueue := []
  op := none
  held := []
  nv := nv

def Composition.reset : Composition where
  jobs := []
  started := none
  retints := []
  commit := .empty
  path := .free
  frames := List.replicate Config.frameSlots (FrameRec.vacant 0)
  liveOrder := []

def Scheduler.reset : Scheduler where
  tiles := []
  queue := []
  nextId := 1
  deghostMs := 0

def LaneControl.reset : LaneControl where
  lanes := List.replicate Config.laneCount Lane.free
  temperature := 25
  stale := true
  staleMs := 0
  staleStopped := false
  frameCount := 0
  boundaryMs := 0
  scanDue := false

def NoticeBuffer.reset : NoticeBuffer where
  buffer := []
  nextSeq := 0
  lost := false

/-- The thirteen defaults of Table 11-1, none pending (R163). -/
def Settings.reset (cause : ResetCause) : Settings where
  values := [2560, 1920, 12, 0, 16, 15, 12, 0, 1, 0, 1, 0, 0].map (fun v => ⟨v, Option.none⟩)
  power := .starting
  lastActive := none
  cause := cause

/-- The part right after a reset of the given cause, over the nonvolatile content `nv` (R171).  The pins are inputs and
the command queue is the model's own. -/
def State.afterReset (cause : ResetCause) (nv : NvStore) (pins : Pins) (pending : List Instr) : State where
  pins := pins
  link := LinkUnit.reset
  flows := List.replicate 4 []
  styles := List.replicate 32 Style.default
  store := FontStore.reset nv
  comp := Composition.reset
  notes := []
  planes := ⟨[], [], []⟩
  sched := Scheduler.reset
  lanes := LaneControl.reset
  notices := NoticeBuffer.reset
  settings := Settings.reset cause
  pending := pending

/-- The machine right after reset: a part as delivered whose reset pin has just been released. -/
def State.reset : State :=
  State.afterReset .pin NvStore.delivered ⟨false, false⟩ []

end Sys2Proof.Machine
end

