-- ==== Sys2Proof/Machine/Bytes.lean ====
section
/-! DEFINITION. Numbers as bytes of the link (R150), the check value of a frame (R148) and the stored form of a glyph
record (Table 2-2). -/

namespace Sys2Proof.Machine

/-- One byte of a number. -/
def put8 (n : Nat) : List Byte := [Byte.ofNat n]

/-- Two bytes, low byte first. -/
def put16 (n : Nat) : List Byte := [Byte.ofNat n, Byte.ofNat (n / 256)]

/-- Four bytes, low byte first. -/
def put32 (n : Nat) : List Byte :=
  [Byte.ofNat n, Byte.ofNat (n / 256), Byte.ofNat (n / 65536), Byte.ofNat (n / 16777216)]

/-- A signed number in one byte, two's complement. -/
def putS8 (i : Int) : List Byte := [BitVec.ofInt 8 i]

/-- A signed number in two bytes, two's complement, low byte first. -/
def putS16 (i : Int) : List Byte := put16 (BitVec.ofInt 16 i).toNat

/-- A flag byte. -/
def putFlag (b : Bool) : List Byte := put8 (if b then 1 else 0)

/-- An optional field: a presence byte, then the field when present. -/
def putOpt {α : Type} (put : α → List Byte) : Option α → List Byte
  | none => put8 0
  | some a => put8 1 ++ put a

/-- A list: a two-byte count, then the entries. -/
def putList {α : Type} (put : α → List Byte) (l : List α) : List Byte :=
  put16 l.length ++ (l.map put).flatten

/-- A position: two bytes for the run, one for the offset. -/
def putPos (p : Pos) : List Byte := put16 p.run ++ put8 p.off

/-- One of the eight steps a byte takes in the check value's register (R148). -/
def crcShift (r : BitVec 16) : BitVec 16 :=
  if r.msb then (r <<< 1) ^^^ 0x1021#16 else r <<< 1

/-- A byte taken into the register (R148). -/
def crcByte (r : BitVec 16) (b : Byte) : BitVec 16 :=
  let r0 := r ^^^ (b.setWidth 16 <<< 8)
  crcShift (crcShift (crcShift (crcShift (crcShift (crcShift (crcShift (crcShift r0)))))))

/-- The check value of the kept bytes of a frame: length, tag, kind and payload (R148). -/
def crc16 (bytes : List Byte) : BitVec 16 := bytes.foldl crcByte 0xFFFF#16

/-- The bytes of a frame that its check value covers (Table 9-1). -/
def frameCore (tag kind : Byte) (payload : List Byte) : List Byte :=
  put16 payload.length ++ [tag, kind] ++ payload

/-- The frame: start byte, core, check value with its high byte first (Table 9-1). -/
def frameBytes (tag kind : Byte) (payload : List Byte) : List Byte :=
  let core := frameCore tag kind payload
  let c := (crc16 core).toNat
  0xC3#8 :: core ++ [Byte.ofNat (c / 256), Byte.ofNat c]

/-- Coverage values two to a byte, the earlier in bits 0–3 (Table 2-2). -/
def packCoverage : List Nat → List Byte
  | [] => []
  | [a] => [Byte.ofNat (a % 16)]
  | a :: b :: rest => Byte.ofNat (a % 16 + 16 * (b % 16)) :: packCoverage rest

/-- The stored form of a glyph record, reserved bits 0 (Table 2-2, R26). -/
def glyphBytes (index : Nat) (g : GlyphRec) : List Byte :=
  put16 (index % 4096) ++ put16 (g.advance % 4096) ++ putS8 g.xBearing ++ putS8 g.topOffset
    ++ put8 (g.width % 128) ++ put8 (g.height % 128) ++ packCoverage g.coverage

/-- The record's length: 8 + ceil(width × height / 2) (R26). -/
def glyphLength (g : GlyphRec) : Nat := 8 + (g.width * g.height + 1) / 2

/-- The stored size: the length rounded up to an even number of bytes (R30). -/
def storedSize (g : GlyphRec) : Nat := (glyphLength g + 1) / 2 * 2

/-- The 16-bit words of a byte list, lower-addressed byte low, an odd end filled with 0 (R33), summed. -/
def wordSum : List Byte → Nat
  | [] => 0
  | [a] => a.toNat
  | a :: b :: rest => a.toNat + 256 * b.toNat + wordSum rest

/-- The unlocked form of the checksum over current records (R33). -/
def checksumUnlocked (glyphs : List (Nat × GlyphRec)) : Nat :=
  ((glyphs.map (fun e => wordSum (glyphBytes e.1 e.2))).sum) % 65536

/-- The locked form: the four name-tag words, the glyph count, and ascent × 256 + descent (R33). -/
def checksumLocked (h : FontHeader) : Nat :=
  (wordSum h.nameTag + h.glyphCount + (h.ascent * 256 + h.descent)) % 65536

/-- The form of the checksum that the locked mark selects (R33). -/
def nvChecksum (f : NvFont) : Nat :=
  if f.locked then checksumLocked f.header else checksumUnlocked f.glyphs

end Sys2Proof.Machine
end

