-- ==== Sys2Proof/Machine/Fonts.lean ====
section
/-! DEFINITION. What the Font Store answers to lookups, and facts read from its tables (spec/02 2.1 to 2.4, 2.8). -/

namespace Sys2Proof.Machine

/-- A slot of the font table. -/
def fontSlot (st : FontStore) (slot : Nat) : FontSlot := st.slots.getD slot FontSlot.vacant

/-- What the banks keep for a slot, if anything (R23). -/
def nvFont (st : FontStore) (slot : Nat) : Option NvFont := st.nv.fonts.getD slot none

/-- The font table with one slot replaced. -/
def withSlot (st : FontStore) (slot : Nat) (v : FontSlot) : FontStore :=
  { st with slots := st.slots.set slot v }

/-- The banks with one font's content replaced. -/
def withNvFont (nv : NvStore) (slot : Nat) (f : Option NvFont) : NvStore :=
  { nv with fonts := nv.fonts.set slot f }

/-- The glyph records a write entry carries for a slot. -/
def entryGlyphs (slot : Nat) : WriteEntry → List (Nat × GlyphRec)
  | .header _ _ => []
  | .glyphs s recs => if s = slot then recs else []

/-- A record put for an index: it replaces the earlier one (R31). -/
def putGlyph (l : List (Nat × GlyphRec)) (e : Nat × GlyphRec) : List (Nat × GlyphRec) :=
  l.filter (fun x => x.1 != e.1) ++ [e]

/-- What programming an entry puts into the banks (R29). -/
def programEntry (nv : NvStore) : WriteEntry → NvStore
  | .header slot h => withNvFont nv slot (some ⟨h, [], false, false, 0, false⟩)
  | .glyphs slot recs =>
    withNvFont nv slot ((nv.fonts.getD slot none).map (fun f => { f with glyphs := recs.foldl putGlyph f.glyphs }))

/-- What a reset leaves in the banks of the entry whose programming it cuts, the oldest of the queue: a header entry leaves
the header without an end mark; a font whose glyph entry is cut has no end mark already (R29). -/
def cutProgramming (st : FontStore) : NvStore :=
  match st.writeQueue with
  | .header slot h :: _ => programEntry st.nv (.header slot h)
  | _ => st.nv

/-- The current records of a slot: the programmed ones, and over them those of the write queue in order of acceptance (R31). -/
def currentGlyphs (st : FontStore) (slot : Nat) : List (Nat × GlyphRec) :=
  let stored := match nvFont st slot with
    | some f => f.glyphs
    | none => []
  ((st.writeQueue.map (entryGlyphs slot)).flatten).foldl putGlyph stored

/-- The current record of an index (R31). -/
def currentGlyph (st : FontStore) (slot index : Nat) : Option GlyphRec :=
  ((currentGlyphs st slot).find? (fun e => e.1 == index)).map (·.2)

/-- Whether a bank lies in the range of a header. -/
def bankOf (h : FontHeader) (b : Nat) : Bool := decide (h.firstBank ≤ b ∧ b ≤ h.lastBank)

/-- The capacity of a font (R23). -/
def capacityOf (h : FontHeader) : Nat := 131072 * (h.lastBank - h.firstBank + 1) - 16384

/-- Whether a bank is free (R23): no font in a state other than EMPTY holds it, and no erase of it is in progress. -/
def bankFree (st : FontStore) (b : Nat) : Bool :=
  (st.slots.all (fun s =>
    match s.state, s.header with
    | .empty, _ => true
    | _, some h => !bankOf h b
    | _, none => true)) &&
  (match st.op with
   | some (.fontDrop _ first last) => !decide (first ≤ b ∧ b ≤ last)
   | some .storeWipe => false
   | _ => true)

/-- Whether the header fields lie in the ranges of R25. -/
def headerInRange (h : FontHeader) : Bool :=
  h.nameTag.length == 8 && decide (1 ≤ h.glyphCount ∧ h.glyphCount ≤ 4096) && decide (1 ≤ h.ascent ∧ h.ascent ≤ 127)
    && decide (h.descent ≤ 127) && decide (h.defaultAdvance ≤ 4095) && decide (h.lastBank ≤ 31)
    && decide (h.firstBank ≤ h.lastBank)

/-- Whether a glyph record is malformed (R26): its x bearing lies outside −64..63, or its map does not hold width × height values. -/
def glyphMalformed (g : GlyphRec) : Bool :=
  !(decide (-64 ≤ g.xBearing ∧ g.xBearing ≤ 63) && g.coverage.length == g.width * g.height)

/-- The fallback advance of a slot (R42). -/
def fallbackAdvance (s : FontSlot) : Nat :=
  match s.state, s.header with
  | .empty, _ => 128
  | _, some h => h.defaultAdvance
  | _, none => 128

/-- A glyph lookup (R41). -/
def glyphLookup (st : FontStore) (font index : Nat) : Answer :=
  let s := fontSlot st font
  match s.state, s.header, currentGlyph st font index with
  | .ready, some h, some g => if index < h.glyphCount then .real g else .fallback (fallbackAdvance s)
  | _, _, _ => .fallback (fallbackAdvance s)

/-- A font metrics lookup: the ascent and the descent (R41). -/
def fontMetrics (st : FontStore) (font : Nat) : Nat × Nat :=
  let s := fontSlot st font
  match s.state, s.header with
  | .empty, _ => (0, 0)
  | _, some h => (h.ascent, h.descent)
  | _, none => (0, 0)

/-- The ascent that a font metrics lookup gives (R41). -/
def fontAscent (st : FontStore) (font : Nat) : Nat := (fontMetrics st font).1

/-- The descent that a font metrics lookup gives (R41).  Setting does not use it (R69). -/
def fontDescent (st : FontStore) (font : Nat) : Nat := (fontMetrics st font).2

/-- The advance of a lookup's answer (R61). -/
def answerAdvance : Answer → Nat
  | .real g => g.advance
  | .fallback a => a

/-- Whether an answer is a fallback box (R42). -/
def isFallback : Answer → Bool
  | .real _ => false
  | .fallback _ => true

end Sys2Proof.Machine
end

