-- ==== Sys2Proof/Machine/Styles.lean ====
section
/-! DEFINITION. Clamping and ordering of style values, and the style stack of a job (spec/01). -/

namespace Sys2Proof.Machine

/-- A number brought into lo..hi (R13, R164). -/
def clampNat (lo hi n : Nat) : Nat := max lo (min n hi)

/-- A signed number brought into lo..hi (R13, R136). -/
def clampInt (lo hi n : Int) : Int := max lo (min n hi)

/-- The alignment a code names (Table 1-2). -/
def alignOfCode : Nat → Option Align
  | 0 => some .justify
  | 1 => some .start
  | 2 => some .center
  | 3 => some .finish
  | _ => none

/-- The code of an alignment. -/
def alignCode : Align → Nat
  | .justify => 0
  | .start => 1
  | .center => 2
  | .finish => 3

/-- Ordering: space min at most, space max at least, space natural (R13). -/
def orderStyle (s : Style) : Style :=
  { s with spaceMin := min s.spaceMin s.spaceNatural, spaceMax := max s.spaceMax s.spaceNatural }

/-- Each present field, clamped to its range of Table 1-2, replaces the field of `base`; then the record is ordered
(R13, R14, R19).  An alignment code that names none is refused before this is reached; here it keeps the base's. -/
def applyFields (base : Style) (f : StyleFields) : Style :=
  orderStyle
    { font := (f.font.map (clampNat 0 15)).getD base.font
      ink := (f.ink.map (clampNat 0 15)).getD base.ink
      letterSpacing := (f.letterSpacing.map (clampInt (-32) 32)).getD base.letterSpacing
      spaceNatural := (f.spaceNatural.map (clampNat 0 1023)).getD base.spaceNatural
      spaceMin := (f.spaceMin.map (clampNat 0 1023)).getD base.spaceMin
      spaceMax := (f.spaceMax.map (clampNat 0 1023)).getD base.spaceMax
      lineHeight := (f.lineHeight.map (clampNat 4 255)).getD base.lineHeight
      firstIndent := (f.firstIndent.map (clampNat 0 1023)).getD base.firstIndent
      paragraphGap := (f.paragraphGap.map (clampNat 0 255)).getD base.paragraphGap
      alignment := ((f.alignment.bind alignOfCode)).getD base.alignment
      hyphenGlyph := (f.hyphenGlyph.map (clampNat 0 4095)).getD base.hyphenGlyph }

/-- Whether no field is present. -/
def styleFieldsEmpty (f : StyleFields) : Bool :=
  f.font.isNone && f.ink.isNone && f.letterSpacing.isNone && f.spaceNatural.isNone && f.spaceMin.isNone
    && f.spaceMax.isNone && f.lineHeight.isNone && f.firstIndent.isNone && f.paragraphGap.isNone
    && f.alignment.isNone && f.hyphenGlyph.isNone

/-- Whether the alignment is absent or one of the four codes (R6, R14). -/
def alignmentKnown (f : StyleFields) : Bool :=
  match f.alignment with
  | none => true
  | some c => (alignOfCode c).isSome

/-- The style table record of an id, as it stands (R12). -/
def tableStyle (table : List Style) (id : Nat) : Style := table.getD id Style.default

/-- The stack at the start of a compose job: level 0 a copy of the base style, all else empty, the given mode (R16). -/
def stackAtStart (table : List Style) (base : Nat) (mode : StackMode) : StyleStack where
  flow := [tableStyle table base]
  level6 := none
  level7 := none
  ignored := 0
  mode := mode

/-- The style in force: the top flow entry (R16). -/
def topStyle (st : StyleStack) : Style := st.flow.getLast?.getD Style.default

/-- STYLE_PUSH (R17). -/
def pushStyle (table : List Style) (id : Nat) (st : StyleStack) : Except FailReason StyleStack :=
  if st.flow.length < 6 then .ok { st with flow := st.flow ++ [tableStyle table id] }
  else
    match st.mode with
    | .lenient => .ok { st with ignored := st.ignored + 1 }
    | .strict => .error .styleOverflow

/-- STYLE_POP (R18). -/
def popStyle (st : StyleStack) : Except FailReason StyleStack :=
  if st.ignored > 0 then .ok { st with ignored := st.ignored - 1 }
  else if st.flow.length ≥ 2 then .ok { st with flow := st.flow.dropLast }
  else
    match st.mode with
    | .lenient => .ok st
    | .strict => .error .styleUnderflow

/-- STYLE_PATCH changes the top flow entry (R19). -/
def patchStyle (f : StyleFields) (st : StyleStack) : StyleStack :=
  match st.flow.getLast? with
  | none => st
  | some top => { st with flow := st.flow.dropLast ++ [applyFields top f] }

/-- What a record read does to the stack: the three style kinds act, the others pass (R17, R18, R19). -/
def stackStep (table : List Style) (r : RunRecord) (st : StyleStack) : Except FailReason StyleStack :=
  match r with
  | .stylePush id => pushStyle table id st
  | .stylePop => popStyle st
  | .stylePatch f => .ok (patchStyle f st)
  | _ => .ok st

/-- The stack after a record, a failing one leaving it as it was (R68). -/
def stackSkip (table : List Style) (r : RunRecord) (st : StyleStack) : StyleStack :=
  match stackStep table r st with
  | .ok st' => st'
  | .error _ => st

/-- The stack after a list of records whose first has index `i`, with the first failure met and its position
(R21, R68): a failing record is passed as if it had not been read. -/
def runStyles (table : List Style) : List RunRecord → Nat → StyleStack → StyleStack × Option (FailReason × Pos)
  | [], _, st => (st, none)
  | r :: rs, i, st =>
    match stackStep table r st with
    | .ok st' => runStyles table rs (i + 1) st'
    | .error e => ((runStyles table rs (i + 1) st).1, some (e, ⟨i, 0⟩))

/-- Levels 6 and 7 for a margin item: a copy of the margin style, and that copy with the note's ink (R20, R92). -/
def placeMargin (style : Style) (ink : Nat) (st : StyleStack) : StyleStack :=
  { st with level6 := some style, level7 := some { style with ink := ink } }

/-- Levels 6 and 7 emptied after a margin item (R20). -/
def clearMargin (st : StyleStack) : StyleStack :=
  { st with level6 := none, level7 := none }

end Sys2Proof.Machine
end

