-- ==== Sys2Proof/Machine/Lines.lean ====
section
/-! DEFINITION. Setting, placing and recomputing lines (spec/04). -/

namespace Sys2Proof.Machine

/-! ### Positions -/

/-- Positions are compared first by run, then by offset (R2). -/
def posLt (a b : Pos) : Bool := decide (a.run < b.run) || (a.run == b.run && decide (a.off < b.off))

/-- Not after. -/
def posLe (a b : Pos) : Bool := !posLt b a

/-- Two ranges [a, b) and [c, d) meet when a < d and c < b (R93). -/
def rangesMeet (a b c d : Pos) : Bool := posLt a d && posLt c b

/-- Where reading begins for a given position (R2). -/
def normalise (recs : List RunRecord) (p : Pos) : Pos :=
  match recs[p.run]? with
  | none => p
  | some (.word gs _ _) => if p.off < gs.length then p else ⟨p.run + 1, 0⟩
  | some _ => if p.off > 0 then ⟨p.run + 1, 0⟩ else p

/-- Whether a record ends a look back for a paragraph start, and whether it is a PARA_END (R62). -/
def lastBreak : List RunRecord → Option Bool
  | [] => none
  | r :: rs =>
    match lastBreak rs with
    | some b => some b
    | none =>
      match r with
      | .word _ _ _ => some false
      | .hardBreak => some false
      | .paraEnd => some true
      | _ => none

/-- A line whose normalised start is `p` is the first line of a paragraph (R62). -/
def isFirstLine (recs : List RunRecord) (p : Pos) : Bool :=
  p.off == 0 && (lastBreak (recs.take p.run)).getD true

/-! ### What a line is set from -/

/-- What setting or recomputing a line reads: the flow, the run index of the end limit, the style table, the Font Store,
the column width in subpixels, and whether the line is a paragraph's first. -/
structure LineEnv where
  recs : List RunRecord
  limit : Nat
  table : List Style
  store : FontStore
  width : Nat
  first : Bool

/-- The indent of a line whose style at line start is `s` (R62). -/
def indentOf (env : LineEnv) (s : Style) : Nat := if env.first then 16 * s.firstIndent else 0

/-- A glyph of a candidate word with the style in force at its record. -/
structure Cand where
  placed : Placed
  style : Style

/-- A glyph looked up and measured (R41, R61): the last glyph of its record contributes its advance, every other
max(0, advance + letter spacing). -/
def measureGlyph (store : FontStore) (s : Style) (pos : Pos) (index : Nat) (isLast : Bool) : Cand :=
  let a := glyphLookup store s.font index
  { placed :=
      { pos := some pos
        answer := a
        contribution := if isLast then answerAdvance a else ((answerAdvance a : Int) + s.letterSpacing).toNat
        ink := s.ink
        lineHeight := s.lineHeight }
    style := s }

/-- The glyphs of a WORD record with offsets from `off` on, below `stop` (R61, R64). -/
def recordGlyphs (store : FontStore) (s : Style) (run off stop : Nat) (glyphs : List Nat) : List Cand :=
  (List.range' off (min stop glyphs.length - off)).map (fun j =>
    measureGlyph store s ⟨run, j⟩ (glyphs.getD j 0) (j + 1 == glyphs.length))

/-- The hyphen glyph of a style (R65): it has no position and contributes its advance. -/
def hyphenGlyph (store : FontStore) (s : Style) : Placed :=
  let a := glyphLookup store s.font s.hyphenGlyph
  { pos := none, answer := a, contribution := answerAdvance a, ink := s.ink, lineHeight := s.lineHeight }

/-- A hyphen point of a candidate word: its position, how many of the word's glyphs stand before it, and the style at
its record (R65). -/
structure HyphenPoint where
  pos : Pos
  before : Nat
  style : Style

/-- A candidate word: its glyphs, its hyphen points in order, and where reading goes on after it (R64). -/
structure WordRun where
  cands : List Cand
  points : List HyphenPoint
  next : Nat
  stack : StyleStack

/-- The hyphen points of a record that lie after the word's first glyph on the line (R65). -/
def recordPoints (s : Style) (run off before : Nat) (hyphens : List Nat) : List HyphenPoint :=
  ((hyphens.filter (fun k => decide (off < k))).map (fun k =>
    { pos := ⟨run, k⟩, before := before + (k - off), style := s }))

/-- Whether a record is one of the three style kinds. -/
def isStyleRecord : RunRecord → Bool
  | .stylePush _ => true
  | .stylePop => true
  | .stylePatch _ => true
  | _ => false

/-- A word read from the records that remain: the first is joined by later WORD records while each carries the continues
flag; style records between are applied; anything else ends the word (R4, R64). -/
def gatherWord (env : LineEnv) : List RunRecord → Nat → Nat → StyleStack → WordRun → WordRun
  | [], _, _, _, acc => acc
  | .word gs continues hyphens :: rest, run, off, st, acc =>
    let s := topStyle st
    let acc' : WordRun :=
      { cands := acc.cands ++ recordGlyphs env.store s run off gs.length gs
        points := acc.points ++ recordPoints s run off acc.cands.length hyphens
        next := run + 1
        stack := st }
    if continues then gatherWord env rest (run + 1) 0 st acc' else acc'
  | r :: rest, run, _, st, acc =>
    if isStyleRecord r then gatherWord env rest (run + 1) 0 (stackSkip env.table r st) acc else acc

/-- The width of a sequence of glyphs (R61). -/
def candsWidth (l : List Cand) : Nat := (l.map (·.placed.contribution)).sum

/-- The styles at the records from which the glyphs come, in order (R69). -/
def candsStyles (l : List Cand) : List Style := l.map (·.style)

/-! ### The working line -/

/-- The working line while it is read (R60, R62, R63): `base` is the indent once the line holds a glyph. -/
structure LineAcc where
  items : List Item
  waiting : List Gap
  minimal : Nat
  natural : Nat
  lineStyle : Option Style
  styles : List Style
  overfull : Bool

def LineAcc.start : LineAcc where
  items := []
  waiting := []
  minimal := 0
  natural := 0
  lineStyle := none
  styles := []
  overfull := false

/-- Whether the line holds a glyph. -/
def accHasGlyph (a : LineAcc) : Bool := a.lineStyle.isSome

/-- A gap sized by the style in force at its SPACE record (R5, R62). -/
def gapOf (s : Style) (run : Nat) : Gap := ⟨⟨run, 0⟩, s.spaceNatural, s.spaceMin, s.spaceMax⟩

/-- A SPACE read: leading ones are dropped, later ones wait (R62). -/
def addSpace (s : Style) (run : Nat) (a : LineAcc) : LineAcc :=
  if accHasGlyph a then { a with waiting := a.waiting ++ [gapOf s run] } else a

/-- The minimal width with every waiting gap at its minimum: where the next word would begin (R64); on an empty line the
indent. -/
def minimalBefore (env : LineEnv) (s : Style) (a : LineAcc) : Nat :=
  if accHasGlyph a then a.minimal + (a.waiting.map (·.min)).sum else indentOf env s

/-- Glyphs placed: the waiting gaps become interior, the widths grow (R62, R63).  `s` is the style in force at the first
of them: the style at line start if the line was empty. -/
def placeGlyphs (env : LineEnv) (s : Style) (l : List Cand) (a : LineAcc) : LineAcc :=
  { items := a.items ++ a.waiting.map Item.gap ++ l.map (fun c => Item.glyph c.placed)
    waiting := []
    minimal := minimalBefore env s a + candsWidth l
    natural := (if accHasGlyph a then a.natural + (a.waiting.map (·.natural)).sum else indentOf env s) + candsWidth l
    lineStyle := some (a.lineStyle.getD s)
    styles := a.styles ++ candsStyles l
    overfull := a.overfull }

/-- The hyphen glyph appended (R65). -/
def placeHyphen (store : FontStore) (s : Style) (a : LineAcc) : LineAcc :=
  let h := hyphenGlyph store s
  { a with items := a.items ++ [Item.glyph h], minimal := a.minimal + h.contribution, natural := a.natural + h.contribution }

/-- The latest hyphen point whose prefix and hyphen glyph keep the line within the column (R65). -/
def latestPoint (env : LineEnv) (base : Nat) (w : WordRun) : Option HyphenPoint :=
  (w.points.filter (fun p =>
    decide (base + candsWidth (w.cands.take p.before) + (hyphenGlyph env.store p.style).contribution ≤ env.width))).getLast?

/-- The length of the longest prefix of at most `n` glyphs with base + width ≤ column (R66). -/
def longestPrefix (env : LineEnv) (base : Nat) (l : List Cand) : Nat → Nat
  | 0 => 0
  | n + 1 => if base + candsWidth (l.take (n + 1)) ≤ env.width then n + 1 else longestPrefix env base l n

/-- A line read to its end: what it holds, its ending and end position, and the style in force where it ended (R67). -/
structure LineEnd where
  acc : LineAcc
  ending : Ending
  stop : Pos
  endStyle : Style

/-- The position of the n-th glyph of a word (R66, R67). -/
def candPos (l : List Cand) (n : Nat) (dflt : Pos) : Pos :=
  ((l[n]?).bind (fun c => c.placed.pos)).getD dflt

/-- What becomes of a candidate word that does not fit: a hyphenated break, a break before it, or an emergency split; the
one word of one glyph too wide for the column is placed and reading goes on (R65, R66). -/
def breakWord (env : LineEnv) (w : WordRun) (s : Style) (run : Nat) (a : LineAcc) : LineEnd ⊕ LineAcc :=
  let base := minimalBefore env s a
  match latestPoint env base w with
  | some p =>
    .inl ⟨placeHyphen env.store p.style (placeGlyphs env s (w.cands.take p.before) a), .hyphen, p.pos, p.style⟩
  | none =>
    if accHasGlyph a then .inl ⟨a, .fit, candPos w.cands 0 ⟨run, 0⟩, s⟩
    else
      let n := longestPrefix env base w.cands (w.cands.length - 1)
      if n ≥ 1 then .inl ⟨placeGlyphs env s (w.cands.take n) a, .split, candPos w.cands n ⟨run, 0⟩, s⟩
      else
        let a' := { placeGlyphs env s (w.cands.take 1) a with overfull := true }
        if w.cands.length ≥ 2 then .inl ⟨a', .split, candPos w.cands 1 ⟨run, 0⟩, s⟩
        else .inr a'

/-- Reading goes on from record `run`, offset `off`, with the stack there, until the line ends (R64 to R67).  `fuel` is at
least the number of records up to the end limit. -/
def readLine (env : LineEnv) : Nat → Nat → Nat → StyleStack → LineAcc → LineEnd
  | 0, _, _, st, a => ⟨a, .limit, ⟨env.limit, 0⟩, topStyle st⟩
  | fuel + 1, run, off, st, a =>
    if run ≥ env.limit then ⟨a, .limit, ⟨env.limit, 0⟩, topStyle st⟩
    else
      match env.recs[run]? with
      | none => ⟨a, .limit, ⟨env.limit, 0⟩, topStyle st⟩
      | some .space => readLine env fuel (run + 1) 0 st (addSpace (topStyle st) run a)
      | some .hardBreak => ⟨a, .hardBreak, ⟨run + 1, 0⟩, topStyle st⟩
      | some .paraEnd => ⟨a, .paraEnd, ⟨run + 1, 0⟩, topStyle st⟩
      | some (.word _ _ _) =>
        let w := gatherWord env ((env.recs.take env.limit).drop run) run off st ⟨[], [], run + 1, st⟩
        let s := topStyle st
        if minimalBefore env s a + candsWidth w.cands ≤ env.width then
          readLine env fuel w.next 0 w.stack (placeGlyphs env s w.cands a)
        else
          match breakWord env w s run a with
          | .inl e => e
          | .inr a' => readLine env fuel w.next 0 w.stack a'
      | some r => readLine env fuel (run + 1) 0 (stackSkip env.table r st) a

/-! ### Distributing the width (R71 to R74) -/

/-- The first pass: gap i takes the lesser of its cap and its even share (R72). -/
def firstPass (q r : Nat) : Nat → List Nat → List Nat
  | _, [] => []
  | i, c :: cs => min c (if i < r then q + 1 else q) :: firstPass q r (i + 1) cs

/-- The second pass gives the remainder out from gap 0 onward to spare capacity; what is left comes back (R72). -/
def secondPass : Nat → List (Nat × Nat) → List Nat × Nat
  | left, [] => ([], left)
  | left, (c, e) :: rest =>
    let more := min left (c - e)
    let (es, l) := secondPass (left - more) rest
    ((e + more) :: es, l)

/-- An amount spread over gaps of the given caps by the two passes (R72, R73). -/
def distribute (amount : Nat) (caps : List Nat) : List Nat × Nat :=
  let e := firstPass (amount / caps.length) (amount % caps.length) 0 caps
  secondPass (amount - e.sum) (caps.zip e)

/-- The gaps of a line in order. -/
def gapsOf : List Item → List Gap
  | [] => []
  | .gap g :: rest => g :: gapsOf rest
  | .glyph _ :: rest => gapsOf rest

/-- Whether a line ended so is a paragraph's last (R67). -/
def isParaLast (e : Ending) : Bool := e == .paraEnd || e == .limit

/-- The final gap sizes, the final width and the loose leftover of a line (R71 to R74). -/
structure LineWidths where
  gaps : List Nat
  final : Nat
  loose : Nat

/-- R71 to R74 on a line of natural width `natural`. -/
def distributeLine (width natural : Nat) (gaps : List Gap) (align : Align) (ending : Ending) : LineWidths :=
  let justified := align == .justify && !isParaLast ending && ending != .hardBreak && decide (1 ≤ gaps.length)
  if justified && decide (natural ≤ width) then
    let (e, left) := distribute (width - natural) (gaps.map (fun g => g.max - g.natural))
    ⟨List.zipWith (fun g x => g.natural + x) gaps e, natural + e.sum, left⟩
  else if decide (natural > width) && decide (1 ≤ gaps.length) then
    let (d, _) := distribute (natural - width) (gaps.map (fun g => g.natural - g.min))
    ⟨List.zipWith (fun g x => g.natural - x) gaps d, natural - d.sum, 0⟩
  else ⟨gaps.map (·.natural), natural, 0⟩

/-- The offset of a line from the column's left edge (R74). -/
def lineOffset (width final : Nat) (align : Align) : Nat :=
  if final > width then 0
  else
    match align with
    | .justify => 0
    | .start => 0
    | .center => (width - final) / 2
    | .finish => width - final

/-- Pens for the items in setting order, gaps taking their final sizes in turn (R75). -/
def layItems : Nat → List Nat → List Item → List Laid
  | _, _, [] => []
  | pen, gs, .glyph g :: rest => ⟨.glyph g, pen, pen + g.contribution⟩ :: layItems (pen + g.contribution) gs rest
  | pen, gs, .gap g :: rest =>
    ⟨.gap g, pen, pen + gs.headD 0⟩ :: layItems (pen + gs.headD 0) gs.tail rest

/-- The pixel of a subpixel quantity, half rounded up (R75). -/
def pixelOf (p : Nat) : Nat := (p + 8) / 16

/-- The glyph list entry of a laid glyph (R75, R76, R42): `fx` is the first column of the frame or margin box, `lineTop` the band's first row,
`baseRow` the baseline row. -/
def entryOf (fx : Int) (lineTop baseRow : Nat) (g : Placed) (pen : Nat) : DrawEntry :=
  match g.answer with
  | .real r =>
    { glyph := some r
      col := fx + pixelOf pen + r.xBearing
      row := (baseRow : Int) - r.topOffset
      width := r.width
      height := r.height
      ink := g.ink }
  | .fallback a =>
    { glyph := none
      col := fx + pixelOf pen
      row := (lineTop : Int) + 1
      width := pixelOf (pen + a) - pixelOf pen
      height := g.lineHeight - 2
      ink := g.ink }

/-- The glyph list of a laid line (R76). -/
def entriesOf (fx : Int) (lineTop baseRow : Nat) : List Laid → List DrawEntry
  | [] => []
  | l :: rest =>
    match l.item with
    | .glyph g => entryOf fx lineTop baseRow g l.pen :: entriesOf fx lineTop baseRow rest
    | .gap _ => entriesOf fx lineTop baseRow rest

/-! ### Setting a line -/

/-- The styles of a line (R69): the style at line start and those of the records placed. -/
def lineStyles (e : LineEnd) : List Style := (e.acc.lineStyle.getD e.endStyle) :: e.acc.styles

/-- The height of a line (R69). -/
def lineHeightOf (styles : List Style) : Nat := (styles.map (·.lineHeight)).foldl max 0

/-- The baseline of a line (R69). -/
def baselineOf (store : FontStore) (styles : List Style) : Nat :=
  min ((styles.map (fun s => fontAscent store s.font)).foldl max 0) (lineHeightOf styles - 1)

/-- A line set (R60 to R77) at frame (fx, fy), `top` rows down, from position `start` (reading from its normalised
place), with the stack there.  `index` is its place in the line table. -/
def setLine (env : LineEnv) (fx fy top index : Nat) (start read : Pos) (st : StyleStack) : WorkingLine :=
  let e := readLine env (env.limit + 1) read.run read.off st LineAcc.start
  let atStart := e.acc.lineStyle.getD e.endStyle
  let styles := lineStyles e
  let h := lineHeightOf styles
  let b := baselineOf env.store styles
  let gaps := gapsOf e.acc.items
  let d := distributeLine env.width e.acc.natural gaps atStart.alignment e.ending
  let offset := lineOffset env.width d.final atStart.alignment
  let indent := if accHasGlyph e.acc then indentOf env atStart else 0
  let laid := layItems (offset + indent) d.gaps e.acc.items
  let entries := entriesOf fx (fy + top) (fy + top + b) laid
  let paraLast := isParaLast e.ending
  { start := start
    items := e.acc.items
    minimal := e.acc.minimal
    natural := e.acc.natural
    styles := styles
    stack := (runStyles env.table ((env.recs.take e.stop.run).drop read.run) read.run st).1
    entries := entries
    record :=
      { index := index
        start := start
        stop := e.stop
        ending := e.ending
        top := top
        height := h
        baseline := b
        offset := offset
        finalWidth := d.final
        looseLeftover := d.loose
        gapCount := gaps.length
        hyphenated := e.ending == .hyphen
        overfull := e.acc.overfull
        loose := decide (d.loose > 0)
        paraLast := paraLast
        glyphCount := entries.length }
    nextTop := top + h + (if paraLast then atStart.paragraphGap else 0) }

/-- The first failure met at a record inside the range of a set line, if any (R68). -/
def lineFailure (env : LineEnv) (read stop : Pos) (st : StyleStack) : Option (FailReason × Pos) :=
  (runStyles env.table ((env.recs.take stop.run).drop read.run) read.run st).2

/-! ### Recomputing a line (R78) -/

/-- What a recomputation has read so far. -/
structure RangeAcc where
  acc : LineAcc
  stack : StyleStack

/-- The records of a range, every word placed, no fit test (R78). -/
def readRange (env : LineEnv) (stop : Pos) : List RunRecord → Nat → Nat → RangeAcc → RangeAcc
  | [], _, _, a => a
  | r :: rest, run, off, a =>
    if posLe stop ⟨run, off⟩ then a
    else
      match r with
      | .word gs _ _ =>
        let s := topStyle a.stack
        let upTo := if run = stop.run then stop.off else gs.length
        let l := recordGlyphs env.store s run off upTo gs
        readRange env stop rest (run + 1) 0 { a with acc := if l.isEmpty then a.acc else placeGlyphs env s l a.acc }
      | .space => readRange env stop rest (run + 1) 0 { a with acc := addSpace (topStyle a.stack) run a.acc }
      | _ => readRange env stop rest (run + 1) 0 { a with stack := stackSkip env.table r a.stack }

/-- The stack at the start of a recorded line, rebuilt from the record's start stack copy and the style table as it
stands (R22, R78). -/
def stackAtLine (recs : List RunRecord) (table : List Style) (frame : FrameRec) (line : LineRec) : StyleStack :=
  let p := normalise recs frame.start
  let q := normalise recs line.start
  (runStyles table ((recs.take q.run).drop p.run) p.run frame.stack).1

/-- A recorded line of a frame record laid out anew (R78). -/
def recomputeLine (recs : List RunRecord) (table : List Style) (store : FontStore) (frame : FrameRec) (line : LineRec) :
    List Laid :=
  let p := normalise recs line.start
  let env : LineEnv := ⟨recs, recs.length, table, store, 16 * frame.rect.w, isFirstLine recs p⟩
  let r := readRange env line.stop (recs.drop p.run) p.run p.off ⟨LineAcc.start, stackAtLine recs table frame line⟩
  let acc := if line.hyphenated then placeHyphen store (topStyle r.stack) r.acc else r.acc
  match acc.lineStyle with
  | none => []
  | some s =>
    let d := distributeLine env.width acc.natural (gapsOf acc.items) s.alignment line.ending
    layItems (lineOffset env.width d.final s.alignment + indentOf env s) d.gaps acc.items

/-- The glyph list of a recomputed line (R76, R78): top, height and baseline are the record's. -/
def recomputedEntries (frame : FrameRec) (line : LineRec) (laid : List Laid) : List DrawEntry :=
  entriesOf frame.rect.x (frame.rect.y + line.top) (frame.rect.y + line.top + line.baseline) laid

end Sys2Proof.Machine
end

