-- ==== Sys2Proof/Machine/Planes.lean ====
section
/-! DEFINITION. A plane as a canonical list of the pixels whose level is not 15, and the one operation that changes
pixels of a rectangle (spec/06). -/

namespace Sys2Proof.Machine

/-- The key of pixel (x, y): row after row, a row being 4096 keys, more than any panel's columns (R101). -/
def planeKey (x y : Nat) : Nat := y * 4096 + x

/-- The level at a key; a key not listed reads as 15, the level of the plane fill (R103). -/
def planeGet : Plane → Nat → Nat
  | [], _ => 15
  | (k, l) :: p, j => if k = j then l else planeGet p j

/-- The level of pixel (x, y). -/
def pixelAt (p : Plane) (x y : Nat) : Nat := planeGet p (planeKey x y)

/-- One entry in front, unless it would be at 15. -/
def planeCons (k l : Nat) (p : Plane) : Plane := if l = 15 then p else (k, l) :: p

/-- Every key of k..k + n − 1 takes the level `f key old`; the rest stays.  `p` has its keys rising. -/
def planeRow (f : Nat → Nat → Nat) : Nat → Nat → Plane → Plane
  | 0, _, p => p
  | n + 1, k, p =>
    p.takeWhile (fun e => e.1 < k) ++
      (match p.dropWhile (fun e => e.1 < k) with
       | [] => planeCons k (f k 15) (planeRow f n (k + 1) [])
       | (k', l) :: t =>
         if k' = k then planeCons k (f k l) (planeRow f n (k + 1) t)
         else planeCons k (f k 15) (planeRow f n (k + 1) ((k', l) :: t)))

/-- Every pixel (x, y) of the rectangle takes the level `f x y old`; every other pixel stays. -/
def planeRect (r : PRect) (f : Nat → Nat → Nat → Nat) (p : Plane) : Plane :=
  (List.range' r.y r.h).foldl
    (fun q y => planeRow (fun k old => f (k - y * 4096) y old) r.w (planeKey r.x y) q) p

/-- The canonical form: keys strictly rising and no entry at 15. -/
abbrev PlaneWf (p : Plane) : Prop :=
  p.Pairwise (fun a b => a.1 < b.1) ∧ ∀ e ∈ p, e.2 ≠ 15

/-- The pixel rectangle of tile (tx, ty) (R102). -/
def tilePixels (tx ty : Nat) : PRect := ⟨tx * 64, ty * 64, 64, 64⟩

/-- The pixels of `dst` over a rectangle take `f` of the levels of `src`, row by row (R113, R115, R141). -/
def planeCopy (r : PRect) (f : Nat → Nat) (src dst : Plane) : Plane :=
  (List.range' r.y r.h).foldl
    (fun q y =>
      let part := src.filter (fun e => decide (planeKey r.x y ≤ e.1 ∧ e.1 < planeKey r.x y + r.w))
      planeRow (fun k _ => f (planeGet part k)) r.w (planeKey r.x y) q) dst

/-- A glyph pixel of coverage c and ink k over level p (R107). -/
def glyphLevel (p k c : Nat) : Nat := if p > k then p - (p - k) * c / 15 else p

/-- A FILL note's pixel of shade a over level p (R89). -/
def fillLevel (p a : Nat) : Nat := p - p * a / 16

/-- The intersection of a..a + n − 1 with lo..hi − 1, as its first value and its length. -/
def clipSpan (a : Int) (n lo hi : Nat) : Nat × Nat :=
  let first := max a (lo : Int)
  let stop := min (a + n) (hi : Int)
  (first.toNat, (stop - first).toNat)

/-- The part of a rectangle at (x, y), w by h, inside `clip` (R105). -/
def clipRect (x y : Int) (w h : Nat) (clip : PRect) : PRect :=
  let cs := clipSpan x w clip.x (clip.x + clip.w)
  let rs := clipSpan y h clip.y (clip.y + clip.h)
  ⟨cs.1, rs.1, cs.2, rs.2⟩

/-- Whether a rectangle holds no pixel. -/
def rectEmpty (r : PRect) : Bool := r.w == 0 || r.h == 0

/-- Whether two rectangles share a pixel (R49). -/
def rectsMeet (a b : PRect) : Bool :=
  !rectEmpty (clipRect a.x a.y a.w a.h b)

end Sys2Proof.Machine
end

