-- ==== Sys2Proof/Machine/Ops.lean ====
section
/-! DEFINITION. The operations that several commands share: settings at their boundaries, posting a notice, filling a
reply, releasing a frame record, queueing an update, drawing into W and marking tiles, and a reset taking effect. -/

namespace Sys2Proof.Machine

/-! ### Settings (R163 to R167) -/

/-- The class of a setting id (Table 11-1). -/
def settingClass (id : Nat) : SettingClass :=
  if id ≤ 2 then .standby else if id ≤ 5 then .jobBoundary else if id = 6 then .dispatchBoundary else .live

/-- A setting's two values. -/
def setting (t : Settings) (id : Nat) : Setting := t.values.getD id ⟨0, none⟩

/-- The applied value of a setting (R163). -/
def applied (s : State) (id : Nat) : Nat := (setting s.settings id).applied

/-- Whether the hold setting is 1 (R167). -/
def holding (t : Settings) : Bool := (setting t 12).applied == 1

/-- The state of a setting (R163). -/
def settingState (t : Settings) (id : Nat) : SettingState :=
  match (setting t id).pending with
  | none => .applied
  | some _ =>
    if holding t && (settingClass id == .jobBoundary || settingClass id == .dispatchBoundary) then .held else .awaiting

/-- A pending value, if present, becomes the applied value (R166). -/
def applyPending (v : Setting) : Setting := ⟨v.pending.getD v.applied, none⟩

/-- A function of the index applied along a list. -/
def mapFrom {α : Type} (f : Nat → α → α) : Nat → List α → List α
  | _, [] => []
  | i, a :: l => f i a :: mapFrom f (i + 1) l

/-- Every pending value of one class applies, all together (R166). -/
def applyClass (c : SettingClass) (t : Settings) : Settings :=
  { t with values := mapFrom (fun i v => if settingClass i == c then applyPending v else v) 0 t.values }

/-- A boundary of a class: its pending values apply unless hold keeps them (R166, R167). -/
def applyBoundary (c : SettingClass) (t : Settings) : Settings := if holding t then t else applyClass c t

/-- The stack mode a value of setting 3 names. -/
def stackModeOf (v : Nat) : StackMode := if v = 0 then .lenient else .strict

/-- Whether the refresh policy is AUTO (R120). -/
def policyAuto (s : State) : Bool := applied s 7 == 0

/-- Panel width and height in pixels (R101). -/
def panelWidth (s : State) : Nat := applied s 0
def panelHeight (s : State) : Nat := applied s 1

/-- Tile columns and rows of the applied geometry (R102). -/
def tileCols (s : State) : Nat := panelWidth s / Config.tileEdge
def tileRows (s : State) : Nat := panelHeight s / Config.tileEdge

/-- The panel as a pixel rectangle. -/
def panelRect (s : State) : PRect := ⟨0, 0, panelWidth s, panelHeight s⟩

/-! ### Notices (R159) -/

/-- A posting taken by the Notice Buffer with the given stamp (R159). -/
def postNotice (stamp : Option Nat) (b : NoticeBody) (n : NoticeBuffer) : NoticeBuffer :=
  if n.buffer.length < Config.noticeMax then
    { buffer := n.buffer ++ [⟨n.nextSeq, n.lost, stamp, b⟩]
      nextSeq := (n.nextSeq + 1) % 65536
      lost := false }
  else
    { n with nextSeq := (n.nextSeq + 1) % 65536, lost := true }

/-- A block posts a notice; the stamp is the frame count when the notice stamp setting is 1 (R158, R159). -/
def post (b : NoticeBody) (s : State) : State :=
  { s with notices := postNotice (if applied s 11 = 1 then some s.lanes.frameCount else none) b s.notices }

/-- A count in a notice field that stays at 65,535 (R158). -/
def sat16 (n : Nat) : Nat := min n 65535

/-! ### Replies (R152, R153, R27) -/

/-- The number of FREE places (R152). -/
def freePlaces (l : LinkUnit) : Nat := Config.replyPlaces - l.reserved - l.filled.length

/-- A request decided when it is taken: the place kept for it is filled at once (R152, R153). -/
def answer (tag kind : Byte) (a : Status × ReplyFields) (s : State) : State :=
  { s with link := { s.link with filled := s.link.filled ++ [⟨tag, kind, a.1, a.2⟩] } }

/-- The replies at the front of the held list whose answers are there, and the rest (R27). -/
def splitDecided : List HeldReply → List Reply × List HeldReply
  | [] => ([], [])
  | h :: rest =>
    match h.answer with
    | some a => ((⟨h.tag, h.kind, a.1, a.2⟩ :: (splitDecided rest).1), (splitDecided rest).2)
    | none => ([], h :: rest)

/-- Places of decided font requests are filled, in order of taking, up to the first undecided one (R27). -/
def fillDecided (s : State) : State :=
  { s with
    link :=
      { s.link with
        filled := s.link.filled ++ (splitDecided s.store.held).1
        reserved := s.link.reserved - (splitDecided s.store.held).1.length }
    store := { s.store with held := (splitDecided s.store.held).2 } }

/-- A font request taken: a place is RESERVED for it and its answer, if decided, waits its turn (R27, R152). -/
def holdReply (tag kind : Byte) (a : Option (Status × ReplyFields)) (s : State) : State :=
  fillDecided
    { s with
      link := { s.link with reserved := s.link.reserved + 1 }
      store := { s.store with held := s.store.held ++ [⟨tag, kind, a⟩] } }

/-- The store operation's request is decided: its held reply gets its answer (R27). -/
def decideHeld (a : Status × ReplyFields) : List HeldReply → List HeldReply
  | [] => []
  | h :: rest =>
    match h.answer with
    | none => { h with answer := some a } :: rest
    | some _ => h :: decideHeld a rest

/-- The store operation in progress ends with an answer (R27). -/
def endOperation (a : Status × ReplyFields) (s : State) : State :=
  fillDecided { s with store := { s.store with op := none, held := decideHeld a s.store.held } }

/-! ### Frame records (R50, R56) -/

/-- A frame record slot. -/
def frameAt (c : Composition) (slot : Nat) : FrameRec := c.frames.getD slot (FrameRec.vacant 0)

/-- The frame record slots with one replaced. -/
def withFrame (slot : Nat) (f : FrameRec) (c : Composition) : Composition := { c with frames := c.frames.set slot f }

/-- A retint job of the record is WAITING (R45). -/
def retintWaits (c : Composition) (slot gen : Nat) : Bool :=
  c.retints.any (fun e => e.slot == slot && e.gen == gen && e.run.isNone)

/-- A retint job of the record is RUNNING (R45). -/
def retintRuns (c : Composition) (slot gen : Nat) : Bool :=
  c.retints.any (fun e => e.slot == slot && e.gen == gen && e.run.isSome)

/-- A retint job for the record joins the tail of the retint queue, WAITING (R45). -/
def enqueueRetint (slot gen : Nat) (c : Composition) : Composition :=
  { c with retints := c.retints ++ [⟨slot, gen, none⟩] }

/-- What a release does to the retint queue: a WAITING job of the record leaves, a RUNNING one is told to stop (R56). -/
def dropRetints (slot gen : Nat) (l : List RetintEntry) : List RetintEntry :=
  (l.filter (fun e => !(e.slot == slot && e.gen == gen && e.run.isNone))).map (fun e =>
    if e.slot == slot && e.gen == gen then { e with run := e.run.map (fun r => { r with released := true }) } else e)

/-- Releasing a frame record (R56). -/
def releaseFrame (slot : Nat) (c : Composition) : Composition :=
  let f := frameAt c slot
  { c with
    frames := c.frames.set slot (FrameRec.vacant f.gen)
    liveOrder := c.liveOrder.filter (fun i => i != slot)
    retints := dropRetints slot f.gen c.retints }

/-- The slots, among 0..7, whose record satisfies a condition. -/
def framesWhere (p : FrameRec → Bool) (c : Composition) : List Nat :=
  (List.range Config.frameSlots).filter (fun i => p (frameAt c i))

/-- Releasing each of a list of records. -/
def releaseAll (l : List Nat) (c : Composition) : Composition := l.foldl (fun c i => releaseFrame i c) c

/-- A record's area: its rectangle widened by both margins, clipped to the panel (R49). -/
def areaOf (panel r : PRect) (marginLeft marginRight : Nat) : PRect :=
  clipRect ((r.x : Int) - marginLeft) r.y (r.w + marginLeft + marginRight) r.h panel

/-! ### Tile rectangles and the update queue (R123, R124) -/

/-- Whether a tile lies in a rectangle. -/
def inTileRect (r : TileRect) (tx ty : Nat) : Bool :=
  decide (r.col0 ≤ tx ∧ tx ≤ r.col1 ∧ r.row0 ≤ ty ∧ ty ≤ r.row1)

/-- Two tile rectangles share a tile (R123). -/
def tilesOverlap (a b : TileRect) : Bool :=
  decide (a.col0 ≤ b.col1 ∧ b.col0 ≤ a.col1 ∧ a.row0 ≤ b.row1 ∧ b.row0 ≤ a.row1)

/-- Two tile rectangles share no tile but have tiles that meet along an edge (R123). -/
def tilesAdjoin (a b : TileRect) : Bool :=
  !tilesOverlap a b &&
    (decide (a.row0 ≤ b.row1 ∧ b.row0 ≤ a.row1 ∧ (a.col1 + 1 = b.col0 ∨ b.col1 + 1 = a.col0)) ||
      decide (a.col0 ≤ b.col1 ∧ b.col0 ≤ a.col1 ∧ (a.row1 + 1 = b.row0 ∨ b.row1 + 1 = a.row0)))

/-- The smallest tile rectangle that contains both (0.7). -/
def tilesBound (a b : TileRect) : TileRect :=
  ⟨min a.col0 b.col0, max a.col1 b.col1, min a.row0 b.row0, max a.row1 b.row1⟩

/-- The rectangle of one tile, given by its index in a table of `cols` columns. -/
def tileRectOf (cols i : Nat) : TileRect := ⟨i % cols, i % cols, i / cols, i / cols⟩

/-- The bounding rectangle of a set of tiles, absent for none (0.7). -/
def boundTiles (cols : Nat) : List Nat → Option TileRect
  | [] => none
  | i :: rest =>
    match boundTiles cols rest with
    | none => some (tileRectOf cols i)
    | some r => some (tilesBound (tileRectOf cols i) r)

/-- The stronger of two modes, SWIFT < TEXT < CLEAN (R114). -/
def stronger : Mode → Mode → Mode
  | .clean, _ => .clean
  | _, .clean => .clean
  | .text, _ => .text
  | _, .text => .text
  | .swift, .swift => .swift

/-- The stronger of a mode and an optional one (R114). -/
def strongerOpt : Option Mode → Mode → Mode
  | none, m => m
  | some a, m => stronger a m

/-- A new update before it is queued (R123). -/
structure NewUpdate where
  rect : TileRect
  mode : Mode
  cls : UpdateClass
  origin : Origin

/-- The place of the newest record whose rectangle overlaps or adjoins a rectangle (R123). -/
def newestNear (r : TileRect) : List UpdateRec → Option Nat
  | [] => none
  | q :: rest =>
    match newestNear r rest with
    | some i => some (i + 1)
    | none => if tilesOverlap q.rect r || tilesAdjoin q.rect r then some 0 else none

/-- A matching record takes the update: the rectangle grows, the merged count rises (R123 step 2). -/
def mergeMatching (u : NewUpdate) (q : UpdateRec) : UpdateRec :=
  { q with rect := tilesBound q.rect u.rect, merged := min (q.merged + 1) 255 }

/-- The newest record takes the update at a full queue (R124). -/
def mergeCoarse (u : NewUpdate) (q : UpdateRec) : UpdateRec :=
  { q with
    rect := tilesBound q.rect u.rect
    mode := stronger q.mode u.mode
    cls := if q.cls == .prompt || u.cls == .prompt then .prompt else .normal
    merged := min (q.merged + 1) 255 }

/-- The update id after one (R122). -/
def nextUpdateId (n : Nat) : Nat := if n ≥ 65535 then 1 else n + 1

/-- The default of a lookup in the update queue that the model never reads. -/
def UpdateRec.blank : UpdateRec := ⟨0, ⟨0, 0, 0, 0⟩, .swift, .normal, .commit, 0⟩

/-- Steps 3 and 4 of queueing: append, or merge into the newest record of a full queue (R123, R124). -/
def appendUpdate (u : NewUpdate) (c : Scheduler) : Scheduler × Nat :=
  if c.queue.length < Config.updateQueueMax then
    ({ c with queue := c.queue ++ [⟨c.nextId, u.rect, u.mode, u.cls, u.origin, 1⟩], nextId := nextUpdateId c.nextId }, c.nextId)
  else
    let n := c.queue.getLastD UpdateRec.blank
    ({ c with queue := c.queue.dropLast ++ [mergeCoarse u n] }, n.id)

/-- A new update is queued; the id is that of the record that carries it (R123). -/
def queueUpdate (u : NewUpdate) (c : Scheduler) : Scheduler × Nat :=
  match newestNear u.rect c.queue with
  | none => appendUpdate u c
  | some i =>
    let q := c.queue.getD i UpdateRec.blank
    if q.mode = u.mode ∧ q.cls = u.cls then ({ c with queue := c.queue.set i (mergeMatching u q) }, q.id)
    else appendUpdate u c

/-! ### Drawing (R104, R105, R111) -/

/-- Whether some pixel of the rectangle is addressed. -/
def anyPixel (r : PRect) (addressed : Nat → Nat → Bool) : Bool :=
  (List.range' r.y r.h).any (fun y => (List.range' r.x r.w).any (fun x => addressed x y))

/-- Work-dirty is set on every tile that holds an addressed pixel of the rectangle (R111). -/
def markTiles (cols : Nat) (r : PRect) (addressed : Nat → Nat → Bool) (tiles : List TileRec) : List TileRec :=
  mapFrom (fun i t =>
    if anyPixel (clipRect r.x r.y r.w r.h (tilePixels (i % cols) (i / cols))) addressed then { t with workDirty := true }
    else t) 0 tiles

/-- One drawing operation on W over a rectangle already clipped: each addressed pixel takes its new level, and the tiles
that hold one are marked (R104, R105, R111). -/
def drawRect (r : PRect) (addressed : Nat → Nat → Bool) (level : Nat → Nat → Nat → Nat) (s : State) : State :=
  { s with
    planes := { s.planes with w := planeRect r (fun x y p => if addressed x y then level x y p else p) s.planes.w }
    sched := { s.sched with tiles := markTiles (tileCols s) r addressed s.sched.tiles } }

/-- A paper fill (R106). -/
def paperFill (r : PRect) (paper : Nat) (s : State) : State := drawRect r (fun _ _ => true) (fun _ _ _ => paper) s

/-- The coverage with which an entry addresses pixel (x, y), 0 for none (R108). -/
def entryCoverage (e : DrawEntry) (x y : Nat) : Nat :=
  let j := ((x : Int) - e.col).toNat
  let i := ((y : Int) - e.row).toNat
  match e.glyph with
  | some g => g.coverage.getD (i * e.width + j) 0
  | none => if j = 0 ∨ j + 1 = e.width ∨ i = 0 ∨ i + 1 = e.height then 15 else 0

/-- One glyph entry drawn inside a clip region (R107, R108). -/
def drawEntry (clip : PRect) (s : State) (e : DrawEntry) : State :=
  let r := clipRect e.col e.row e.width e.height clip
  drawRect r (fun x y => decide (0 < entryCoverage e x y)) (fun x y p => glyphLevel p e.ink (entryCoverage e x y)) s

/-- A run of glyph entries drawn in list order (R109). -/
def drawEntries (clip : PRect) (l : List DrawEntry) (s : State) : State := l.foldl (drawEntry clip) s

/-- The number of spans of a glyph list (R51). -/
def spanCount (spanLength entries : Nat) : Nat := (entries + spanLength - 1) / spanLength

/-- The entries of span k (R51, R76). -/
def spanEntries (spanLength k : Nat) (l : List DrawEntry) : List DrawEntry := (l.drop (k * spanLength)).take spanLength

/-! ### Tiles -/

/-- A tile is in flight (Table 0-2). -/
def inFlight (t : TileRec) : Bool := t.state == .flight || t.state == .flightStale

/-- The indices of the tiles that satisfy a condition, in row order. -/
def tilesWhere (p : Nat → TileRec → Bool) : Nat → List TileRec → List Nat
  | _, [] => []
  | i, t :: rest => if p i t then i :: tilesWhere p (i + 1) rest else tilesWhere p (i + 1) rest

/-- A tile copied from W to T: the record's part (R115). -/
def copiedTile (t : TileRec) : TileRec := { t with workDirty := false, targetNewer := true }

/-- A tile copied from W to T: the plane's part (R115). -/
def copyTilePixels (cols i : Nat) (p : Planes) : Planes :=
  { p with t := planeCopy (tilePixels (i % cols) (i / cols)) id p.w p.t }

/-! ### Reset (R171) -/

/-- A reset takes effect: every block takes its values after reset, the nonvolatile content of the Font Store is kept with
what a cut programming leaves there, the pins are inputs (R29, R171).  What was given to the host stays given. -/
def resetPart (cause : ResetCause) (s : State) : State :=
  let r := State.afterReset cause (cutProgramming s.store) s.pins s.pending
  { r with link := { r.link with givenBits := s.link.givenBits, given := s.link.given, lastSent := s.link.lastSent } }

/-- Whether the part runs: the reset pin does not hold it (R171). -/
def running (s : State) : Bool := !s.pins.resetHeld

end Sys2Proof.Machine
end

