-- ==== Sys2Proof/Machine/Flags.lean ====
section
/-! DEFINITION. The conditions that commands test and outputs that follow the state: ATTN, the states of jobs, slots and
the commit slot, and when a request can be handed over. -/

namespace Sys2Proof.Machine

/-- The number of notice records in the buffer (R157). -/
def noticeCount (s : State) : Nat := s.notices.buffer.length

/-- A reply waits: at least one place is FILLED (R153). -/
def replyWaiting (s : State) : Bool := !s.link.filled.isEmpty

/-- The ATTN output (R162). -/
def State.attn (s : State) : Bool := replyWaiting s || decide (noticeCount s ≥ applied s 10)

/-- Whether the Link Unit may hand a request over: a place is FREE, no RESET awaits its effect, and the part is not held in
reset (R152, R156, R171). -/
def mayHandOver (s : State) : Bool := running s && !s.link.resetAwaits && decide (0 < freePlaces s.link)

/-- The deghost interval in milliseconds (R130). -/
def deghostLimitMs (s : State) : Nat := applied s 9 * 60000

/-- The state of the commit slot (R46). -/
def commitState : CommitSlot → CommitState
  | .empty => .empty
  | .pending _ => .pending
  | .latching _ _ _ _ => .latching

/-- The state of the started compose job (R44). -/
def startedState (j : Job) : JobState := if j.running then .running else .suspended

/-- Whether some compose job is queued, running or suspended (R34). -/
def anyComposeJob (c : Composition) : Bool := !c.jobs.isEmpty || c.started.isSome

/-- Whether some retint job is running (R34). -/
def anyRetintRunning (c : Composition) : Bool := c.retints.any (fun e => e.run.isSome)

/-- Whether some retint job is waiting (R48). -/
def anyRetintWaiting (c : Composition) : Bool := c.retints.any (fun e => e.run.isNone)

/-- A READY or DAMAGED font is in use (R34). -/
def fontInUse (s : State) (slot : Nat) : Bool :=
  ((fontSlot s.store slot).state == .ready || (fontSlot s.store slot).state == .damaged)
    && (anyComposeJob s.comp || anyRetintRunning s.comp)

/-- A compose job that is queued, running or suspended names the flow slot, or a retint job is running for a record of
that flow (R10). -/
def flowBusy (c : Composition) (slot : Nat) : Bool :=
  c.jobs.any (fun j => j.flow == slot) || (c.started.any (fun j => j.spec.flow == slot))
    || c.retints.any (fun e => e.run.any (fun r => r.frame.flow == slot))

/-- A compose job with the tag is queued, running or suspended (R43). -/
def jobTagUsed (c : Composition) (tag : Nat) : Bool :=
  c.jobs.any (fun j => j.tag == tag) || c.started.any (fun j => j.spec.tag == tag)

/-- The number of DRIVING lanes (R155). -/
def busyLanes (l : List Lane) : Nat := l.countP (fun x => x != .free)

/-- The band of a temperature (R137). -/
def bandOf (t : Nat) : Band :=
  if t ≤ 4 then .b0 else if t ≤ 14 then .b1 else if t ≤ 24 then .b2 else if t ≤ 34 then .b3 else .b4

/-- The five conditions that keep the part from leaving ACTIVE (R170). -/
def standbyJobs (s : State) : Bool := anyComposeJob s.comp
def standbyRetints (s : State) : Bool := !s.comp.retints.isEmpty
def standbyCommit (s : State) : Bool := s.comp.commit != .empty
def standbyQueue (s : State) : Bool := !s.sched.queue.isEmpty
def standbyLanes (s : State) : Bool := decide (0 < busyLanes s.lanes.lanes)

end Sys2Proof.Machine
end

