-- ==== Sys2Proof/Machine/FlowMemory.lean ====
section
/-! DEFINITION. The Flow Memory's and the Style Unit's requests (spec/01). -/

namespace Sys2Proof.Machine

/-- A flow slot's records. -/
def flowOf (s : State) (slot : Nat) : List RunRecord := s.flows.getD slot []

/-- The free places of the Flow Memory (R1). -/
def freeRunPlaces (s : State) : Nat := Config.flowPlaces - (s.flows.map List.length).sum

/-- A hyphen-point list is well formed for a record of n glyphs (R3). -/
def hyphensWellFormed (n : Nat) (l : List Nat) : Bool :=
  decide (l.length ≤ 8) && l.all (fun k => decide (1 ≤ k ∧ k < n)) && decide (l.Pairwise (· < ·))

/-- Whether a run record is malformed (R3, R6). -/
def recordMalformed : RunRecord → Bool
  | .word gs _ hyphens =>
    !(decide (1 ≤ gs.length ∧ gs.length ≤ 32) && gs.all (fun g => decide (g ≤ 4095)) && hyphensWellFormed gs.length hyphens)
  | .space => false
  | .hardBreak => false
  | .paraEnd => false
  | .stylePush id => decide (id > 31)
  | .stylePop => false
  | .stylePatch f => styleFieldsEmpty f || !alignmentKnown f
  | .unknown _ => true

/-- FLOW_APPEND (R7, R8). -/
def takeFlowAppend (slot : Nat) (records : List RunRecord) (s : State) : State × (Status × ReplyFields) :=
  if slot > 3 then (s, .badArgument, .none)
  else if records.any recordMalformed then (s, .malformed, .none)
  else if records.length > freeRunPlaces s then (s, .full, .freePlaces (freeRunPlaces s))
  else
    ({ s with flows := s.flows.set slot (flowOf s slot ++ records) },
      .ok, .flowLength ((flowOf s slot).length + records.length))

/-- FLOW_CLEAR (R10). -/
def takeFlowClear (slot : Nat) (s : State) : State × (Status × ReplyFields) :=
  if slot > 3 then (s, .badArgument, .none)
  else if flowBusy s.comp slot then (s, .busy, .none)
  else
    let hit := framesWhere (fun f => f.state != .free && f.flow == slot) s.comp
    let s' := { s with flows := s.flows.set slot [], comp := releaseAll hit s.comp }
    (s', .ok, .flowCleared hit.length (freeRunPlaces s'))

/-- FLOW_INFO (R11). -/
def takeFlowInfo (slot : Nat) (s : State) : State × (Status × ReplyFields) :=
  if slot > 3 then (s, .badArgument, .none)
  else (s, .ok, .flowInfo (flowOf s slot).length (freeRunPlaces s))

/-- STYLE_DEFINE (R14). -/
def takeStyleDefine (id : Nat) (f : StyleFields) (s : State) : State × (Status × ReplyFields) :=
  if id > 31 then (s, .badArgument, .none)
  else if !alignmentKnown f then (s, .malformed, .none)
  else
    let v := applyFields (tableStyle s.styles id) f
    ({ s with styles := s.styles.set id v }, .ok, .style v)

/-- STYLE_READ (R15). -/
def takeStyleRead (id : Nat) (s : State) : State × (Status × ReplyFields) :=
  if id > 31 then (s, .badArgument, .none) else (s, .ok, .style (tableStyle s.styles id))

end Sys2Proof.Machine
end

