-- ==== Sys2Proof/Machine/Replies.lean ====
section
/-! DEFINITION. The reply frames the host receives: codes, notice records and reply fields as bytes (R150, R151, R158). -/

namespace Sys2Proof.Machine

/-! ### Codes, numbered from 0 in the order in which the defining rule or table lists them (R150) -/

/-- The status values of Table 9-2. -/
def statusCode : Status → Nat
  | .ok => 0x00
  | .busy => 0x01
  | .full => 0x02
  | .notFound => 0x03
  | .exists_ => 0x04
  | .protected_ => 0x05
  | .locked => 0x06
  | .notActive => 0x07
  | .notInStandby => 0x08
  | .badArgument => 0x09
  | .malformed => 0x0A
  | .unknownKind => 0x0B
  | .overrun => 0x0C
  | .starting => 0x0D

def modeCode : Mode → Nat
  | .swift => 0
  | .text => 1
  | .clean => 2

/-- The mode a code names (R116). -/
def modeOfCode : Nat → Option Mode
  | 0 => some .swift
  | 1 => some .text
  | 2 => some .clean
  | _ => none

def classCode : UpdateClass → Nat
  | .prompt => 0
  | .normal => 1

/-- The update class a code names (R116). -/
def classOfCode : Nat → Option UpdateClass
  | 0 => some .prompt
  | 1 => some .normal
  | _ => none

def originCode : Origin → Nat
  | .commit => 0
  | .refresh => 1
  | .followUp => 2
  | .refine => 3
  | .deghost => 4

def bandCode : Band → Nat
  | .b0 => 0
  | .b1 => 1
  | .b2 => 2
  | .b3 => 3
  | .b4 => 4

def powerCode : Power → Nat
  | .starting => 0
  | .standby => 1
  | .active => 2

def jobStateCode : JobState → Nat
  | .queued => 0
  | .running => 1
  | .suspended => 2

def pathCode : PathHolder → Nat
  | .free => 0
  | .composeJob => 1
  | .retintJob => 2
  | .latch => 3

def commitStateCode : CommitState → Nat
  | .empty => 0
  | .pending => 1
  | .latching => 2

def settingClassCode : SettingClass → Nat
  | .standby => 0
  | .jobBoundary => 1
  | .dispatchBoundary => 2
  | .live => 3

def settingStateCode : SettingState → Nat
  | .applied => 0
  | .awaiting => 1
  | .held => 2

def fontStateCode : FontState → Nat
  | .empty => 0
  | .loading => 1
  | .ready => 2
  | .damaged => 3

def opKindCode : OpKind → Nat
  | .fontEnd => 0
  | .fontDrop => 1
  | .fontLock => 2
  | .fontCheck => 3
  | .protectRaise => 4
  | .storeWipe => 5

def endingCode : Ending → Nat
  | .fit => 0
  | .hyphen => 1
  | .split => 2
  | .hardBreak => 3
  | .paraEnd => 4
  | .limit => 5

def hitCode : Hit → Nat
  | .glyph => 0
  | .gap => 1
  | .hyphen => 2
  | .before => 3
  | .after => 4

def retintStateCode : RetintState → Nat
  | .waiting => 0
  | .running => 1
  | .absent => 2

def stackModeCode : StackMode → Nat
  | .lenient => 0
  | .strict => 1

def sideCode : Side → Nat
  | .none => 0
  | .left => 1
  | .right => 2

/-- The margin side a code names (Table 5-1). -/
def sideOfCode : Nat → Option Side
  | 0 => some .none
  | 1 => some .left
  | 2 => some .right
  | _ => none

def failReasonCode : FailReason → Nat
  | .styleOverflow => 0
  | .styleUnderflow => 1

def passCode : Pass → Nat
  | .replay => 0
  | .lines => 1

def causeCode : ResetCause → Nat
  | .pin => 0
  | .request => 1

/-! ### Records -/

def putRect4 (r : TileRect) : List Byte := put8 r.col0 ++ put8 r.col1 ++ put8 r.row0 ++ put8 r.row1

def putPRect (r : PRect) : List Byte := put16 r.x ++ put16 r.y ++ put16 r.w ++ put16 r.h

/-- A frame slot with its generation. -/
def putPair (p : Nat × Nat) : List Byte := put8 p.1 ++ put16 p.2

/-- A count of two bytes that stays at 65,535 (R158). -/
def putCount (n : Nat) : List Byte := put16 (min n 65535)

def putStartedInfo (i : StartedInfo) : List Byte :=
  put8 i.slot ++ put16 i.gen ++ put8 i.overlapped ++ putOpt putPair i.evicted

/-- The kind code of Table 10-1. -/
def noticeKind : NoticeBody → Nat
  | .started .. => 0
  | .composeDone .. => 1
  | .composeAborted .. => 2
  | .composeFailed .. => 3
  | .retintDone .. => 4
  | .commitDone .. => 5
  | .updateDone .. => 6
  | .fontDamaged .. => 7
  | .temperatureStale .. => 8

/-- The kind fields of a notice, in the order of the rule that Table 10-1 names (R158). -/
def putNoticeBody : NoticeBody → List Byte
  | .started cause ready damaged empty erased wiped boundary temperature stale =>
    put8 (causeCode cause) ++ put8 ready ++ put8 damaged ++ put8 empty ++ put8 erased ++ putFlag wiped ++ put8 boundary
      ++ put8 temperature ++ putFlag stale
  | .composeDone tag slot gen stop lines loose overfull hyphenated missing ignored overlapped evicted suppressed =>
    put8 tag ++ put8 slot ++ put16 gen ++ putPos stop ++ put16 lines ++ put16 loose ++ put16 overfull ++ put16 hyphenated
      ++ putCount missing ++ putCount ignored ++ put8 overlapped ++ putOpt putPair evicted ++ putCount suppressed
  | .composeAborted tag found lines resume info =>
    put8 tag ++ put8 (jobStateCode found) ++ put16 lines ++ putPos resume ++ putOpt putStartedInfo info
  | .composeFailed tag reason at_ pass lines info =>
    put8 tag ++ put8 (failReasonCode reason) ++ putPos at_ ++ put8 (passCode pass) ++ put16 lines ++ putStartedInfo info
  | .retintDone slot gen lo hi redrawn suppressed released =>
    put8 slot ++ put16 gen ++ put8 lo ++ put8 hi ++ put16 redrawn ++ putCount suppressed ++ putFlag released
  | .commitDone mode cls rect copied deferred updateId =>
    put8 (modeCode mode) ++ put8 (classCode cls) ++ putRect4 rect ++ put16 copied ++ put16 deferred ++ put16 updateId
  | .updateDone id rect requested driven cls origin merged escalated degraded band frames staleTiles followUp refine =>
    put16 id ++ putRect4 rect ++ put8 (modeCode requested) ++ put8 (modeCode driven) ++ put8 (classCode cls)
      ++ put8 (originCode origin) ++ put8 merged ++ putFlag escalated ++ putFlag degraded ++ put8 (bandCode band)
      ++ put8 frames ++ put16 staleTiles ++ put16 followUp ++ put16 refine
  | .fontDamaged slot nameTag locked recorded computed =>
    put8 slot ++ nameTag ++ putFlag locked ++ put16 recorded ++ put16 computed
  | .temperatureStale temperature band => put8 temperature ++ put8 (bandCode band)

/-- A notice record (Table 10-2). -/
def putNotice (n : Notice) : List Byte :=
  put16 n.seq ++ put8 (noticeKind n.body) ++ putFlag n.lost ++ putOpt put32 n.stamp ++ putNoticeBody n.body

def putStyle (s : Style) : List Byte :=
  put8 s.font ++ put8 s.ink ++ putS8 s.letterSpacing ++ put16 s.spaceNatural ++ put16 s.spaceMin ++ put16 s.spaceMax
    ++ put8 s.lineHeight ++ put16 s.firstIndent ++ put8 s.paragraphGap ++ put8 (alignCode s.alignment)
    ++ put16 s.hyphenGlyph

def putLineRec (l : LineRec) : List Byte :=
  put8 l.index ++ putPos l.start ++ putPos l.stop ++ put8 (endingCode l.ending) ++ put16 l.top ++ put8 l.height
    ++ put8 l.baseline ++ put16 l.offset ++ put16 l.finalWidth ++ put16 l.looseLeftover ++ put16 l.gapCount
    ++ putFlag l.hyphenated ++ putFlag l.overfull ++ putFlag l.loose ++ putFlag l.paraLast ++ putCount l.glyphCount

def putNoteKind : NoteKind → List Byte
  | .fill a => put8 0 ++ put8 a
  | .underline t => put8 1 ++ put8 t
  | .box => put8 2

def putNote (n : Note) : List Byte :=
  put16 n.id ++ put8 n.flow ++ putPos n.start ++ putPos n.stop ++ putNoteKind n.kind ++ put8 n.ink ++ put8 (sideCode n.side)
    ++ putOpt put16 n.marginGlyph ++ putOpt put8 n.marginStyle ++ putList put16 n.marginText

/-- A slot of FONT_LIST (R36).  The header facts share one presence byte, and so do the cursor and the used bytes: whether a
group has one byte or each of its fields is left open (log entry 11). -/
def putFontEntry (e : FontListEntry) : List Byte :=
  put8 (fontStateCode e.state) ++ putFlag e.locked ++ putFlag e.busy
    ++ putOpt (fun h => h.1 ++ put16 h.2.1 ++ put8 h.2.2.1 ++ put8 h.2.2.2.1 ++ put16 h.2.2.2.2) e.header
    ++ putOpt (fun u => put16 u.1 ++ put32 u.2) e.upload ++ putOpt put16 e.checksum

def putUpdate (e : UpdateRec × Bool) : List Byte :=
  put16 e.1.id ++ putRect4 e.1.rect ++ put8 (modeCode e.1.mode) ++ put8 (classCode e.1.cls) ++ put8 (originCode e.1.origin)
    ++ put8 e.1.merged ++ putFlag e.2

def putStatusInfo (i : StatusInfo) : List Byte :=
  put8 (powerCode i.power) ++ put8 i.queuedJobs ++ putOpt (fun j => put8 j.1 ++ put8 (jobStateCode j.2)) i.started
    ++ put8 i.waitingRetints ++ put8 i.runningRetints ++ put8 (pathCode i.path) ++ put8 (commitStateCode i.commit)
    ++ put8 i.queueDepth ++ put8 i.busyLanes ++ put8 i.temperature ++ put8 (bandCode i.band) ++ putFlag i.stale
    ++ put8 i.noticeCount ++ putFlag i.driveHold ++ put32 i.frameCount ++ put8 i.requestQueue ++ put8 i.reservedPlaces
    ++ put8 i.filledPlaces

def putFrameInfo (i : FrameInfo) : List Byte :=
  put8 i.flow ++ putPos i.start ++ putPos i.stop ++ putPRect i.rect ++ put8 i.marginLeft ++ put8 i.marginRight
    ++ put16 i.lineCount ++ putOpt (fun r => put8 r.1 ++ put8 r.2) i.retint ++ put8 (retintStateCode i.retintState)
    ++ put8 i.flowDepth ++ putCount i.ignored ++ put8 (stackModeCode i.mode) ++ putList putLineRec i.lines

/-- The fields of QUEUE_INFO (R132).  The number of queued records is the two-byte count of their list, and no field of its own
(log entry 11). -/
def putQueueInfo (i : QueueInfo) : List Byte :=
  putList putUpdate i.records ++ put16 i.nextId
    ++ ((i.lanes.map (putOpt (fun l => put16 l.1 ++ putRect4 l.2))).flatten)
    ++ put8 i.policy ++ putFlag i.driveHold ++ put8 i.deghostInterval ++ put16 i.deghostSeconds
    ++ put8 (commitStateCode i.commit) ++ put16 i.flight ++ put16 i.flightStale ++ put16 i.workDirty ++ put16 i.targetNewer
    ++ put16 i.glassUnknown ++ put16 i.inked

/-- The reply fields (R151). -/
def putReplyFields : ReplyFields → List Byte
  | .none => []
  | .status i => putStatusInfo i
  | .setting id v st => put8 id ++ put16 v ++ put8 (settingStateCode st)
  | .settingInfo id cls v p st =>
    put8 id ++ put8 (settingClassCode cls) ++ put16 v ++ putOpt put16 p ++ put8 (settingStateCode st)
  | .activated w h period filled => put16 w ++ put16 h ++ put8 period ++ putFlag filled
  | .standbyBusy a b c d e => putFlag a ++ putFlag b ++ putFlag c ++ putFlag d ++ putFlag e
  | .temperature t b => put8 t ++ put8 (bandCode b)
  | .notices records count lost => putList putNotice records ++ put8 count ++ putFlag lost
  | .cleared n lost => put8 n ++ putFlag lost
  | .freePlaces n => put16 n
  | .flowLength n => put16 n
  | .flowCleared released free => put8 released ++ put16 free
  | .flowInfo length free => put16 length ++ put16 free
  | .style s => putStyle s
  | .capacity n => put32 n
  | .glyphPut cursor free => put16 cursor ++ put32 free
  | .fontEnd checksum glyphs => put16 checksum ++ put16 glyphs
  | .fontLock checksum => put16 checksum
  | .fontCheck isMatch recorded computed => put8 (if isMatch then 0 else 1) ++ put16 recorded ++ put16 computed
  | .fontList boundary op slots =>
    put8 boundary ++ putOpt (fun k => put8 (opKindCode k)) op ++ (slots.map putFontEntry).flatten
  | .glyph index g => glyphBytes index g
  | .boundary n => put8 n
  | .compose tag rect => put8 tag ++ putPRect rect
  | .jobState s => put8 (jobStateCode s)
  | .frame i => putFrameInfo i
  | .located line start stop hit at_ => put8 line ++ putPos start ++ putPos stop ++ put8 (hitCode hit) ++ putPos at_
  | .reached n => put8 n
  | .noteChanged note n => putNote note ++ put8 n
  | .noteList count notes more => put8 count ++ putList putNote notes ++ putFlag more
  | .tileRect r => putRect4 r
  | .refreshed r id => putOpt putRect4 r ++ put16 id
  | .queue i => putQueueInfo i

/-- The reply's payload: the status byte, then the fields (R151). -/
def replyPayload (r : Reply) : List Byte := put8 (statusCode r.status) ++ putReplyFields r.fields

/-- The reply frame as the host clocks it out (Table 9-1). -/
def replyFrame (r : Reply) : List Byte := frameBytes r.tag r.kind (replyPayload r)

end Sys2Proof.Machine
end

