-- ==== Sys2Proof/Machine/Highlight.lean ====
section
/-! DEFINITION. The note table's requests, how they reach frame records, and the drawing of notes and margin items on a
line (spec/05). -/

namespace Sys2Proof.Machine

/-! ### Notes on a line (R87 to R92) -/

/-- A position lies in a note's range (R82, R87). -/
def inNote (n : Note) (p : Pos) : Bool := posLe n.start p && posLt p n.stop

/-- The covered glyphs of a laid line with their pens, in setting order; `prev` says whether the glyph placed just before
is covered, which decides for the hyphen glyph (R87). -/
def coveredGlyphs (n : Note) : Bool → List Laid → List (Placed × Nat)
  | _, [] => []
  | prev, l :: rest =>
    match l.item with
    | .gap _ => coveredGlyphs n prev rest
    | .glyph g =>
      let c := match g.pos with
        | some p => inNote n p
        | none => prev
      if c then (g, l.pen) :: coveredGlyphs n c rest else coveredGlyphs n c rest

/-- A line of a frame record takes a note (R87). -/
def lineTakes (frame : FrameRec) (laid : List Laid) (n : Note) : Bool :=
  n.flow == frame.flow && !(coveredGlyphs n false laid).isEmpty

/-- Draw order: ascending start position, then ascending id (R87). -/
def drawnBefore (a b : Note) : Bool := posLt a.start b.start || (a.start == b.start && decide (a.id < b.id))

/-- A note put into a list in an order. -/
def insertNote (before : Note → Note → Bool) (n : Note) : List Note → List Note
  | [] => [n]
  | m :: rest => if before n m then n :: m :: rest else m :: insertNote before n rest

/-- Notes in an order. -/
def sortNotes (before : Note → Note → Bool) (l : List Note) : List Note := l.foldr (insertNote before) []

/-- A line of a record laid out from the state as it stands (R78). -/
def layLine (s : State) (frame : FrameRec) (line : LineRec) : List Laid :=
  recomputeLine (flowOf s frame.flow) s.styles s.store frame line

/-- The extent of a note on a laid line: x-left and the number of columns through x-right (R88). -/
def noteExtent (fx : Nat) (covered : List (Placed × Nat)) : Nat × Nat :=
  match covered.head?, covered.getLast? with
  | some (_, p), some (g, q) => (fx + pixelOf p, pixelOf (q + answerAdvance g.answer) - pixelOf p)
  | _, _ => (fx, 0)

/-- One note drawn on one line (R89, R90, R110), clipped to the frame's rectangle. -/
def drawPiece (frame : FrameRec) (line : LineRec) (laid : List Laid) (s : State) (n : Note) : State :=
  let (xl, w) := noteExtent frame.rect.x (coveredGlyphs n false laid)
  let y := frame.rect.y + line.top
  match n.kind with
  | .fill a => drawRect (clipRect xl y w line.height frame.rect) (fun _ _ => true) (fun _ _ p => fillLevel p a) s
  | .underline t =>
    drawRect (clipRect xl (y + line.baseline + 2 : Nat) w (min t (line.height - (line.baseline + 2))) frame.rect)
      (fun _ _ => true) (fun _ _ p => min p n.ink) s
  | .box =>
    drawRect (clipRect xl y w line.height frame.rect)
      (fun x v => x == xl || x + 1 == xl + w || v == y || v + 1 == y + line.height) (fun _ _ p => min p n.ink) s

/-- A note has a margin item (R91). -/
def hasMarginItem (n : Note) : Bool := n.side != .none && (n.marginGlyph.isSome || !n.marginText.isEmpty)

/-- The index of the first line of a record that takes a note, by recomputing lines from line 0 (R91). -/
def firstLineOf (s : State) (frame : FrameRec) (n : Note) : Option Nat :=
  frame.lines.findIdx? (fun l => lineTakes frame (layLine s frame l) n)

/-- The glyphs of a margin item: the margin glyph in level 7, then the text in level 6; each but the last contributes
max(0, advance + letter spacing) (R92). -/
def marginCands (store : FontStore) (l6 l7 : Style) (glyph : Option Nat) (text : List Nat) : List Cand :=
  let l := (glyph.map (fun g => (l7, g))).toList ++ text.map (fun g => (l6, g))
  (List.range l.length).map (fun i =>
    let e := l.getD i (l6, 0)
    measureGlyph store e.1 ⟨0, 0⟩ e.2 (i + 1 == l.length))

/-- The margin box of a side: its columns from the first, and the line's band (R92). -/
def marginBox (frame : FrameRec) (side : Side) : Int × Nat :=
  match side with
  | .left => ((frame.rect.x : Int) - frame.marginLeft, frame.marginLeft)
  | .right => (((frame.rect.x + frame.rect.w : Nat) : Int), frame.marginRight)
  | .none => ((frame.rect.x : Int), 0)

/-- The stack with levels 6 and 7 placed for a note's margin item (R20, R92). -/
def marginStack (s : State) (n : Note) (st : StyleStack) : StyleStack :=
  placeMargin (tableStyle s.styles (n.marginStyle.getD 0)) n.ink st

/-- The glyph list of a note's margin item, drawn from the placed levels 6 and 7 (R92). -/
def marginEntries (s : State) (frame : FrameRec) (line : LineRec) (placed : StyleStack) (n : Note) : List DrawEntry :=
  let cands :=
    marginCands s.store (placed.level6.getD Style.default) (placed.level7.getD Style.default) n.marginGlyph n.marginText
  let laid := layItems 0 [] (cands.map (fun c => Item.glyph c.placed))
  let y := frame.rect.y + line.top
  entriesOf (marginBox frame n.side).1 y (y + line.baseline) laid

/-- A margin item drawn, clipped to its margin box within the panel (R92, R105, R110). -/
def drawMargin (frame : FrameRec) (line : LineRec) (side : Side) (entries : List DrawEntry) (s : State) : State :=
  let b := marginBox frame side
  drawEntries (clipRect b.1 ((frame.rect.y + line.top : Nat) : Int) b.2 line.height (panelRect s)) entries s

/-- What drawing the notes of a line did: the state, the fallback boxes of its margin items and the items suppressed. -/
structure Overlaid where
  state : State
  missing : Nat
  suppressed : Nat

/-- The items of one side among the notes that show items on a line, in draw order: the first is to be drawn (R91). -/
def sideItem (notes : List Note) (side : Side) : List LineOp :=
  ((notes.filter (fun n => n.side == side)).take 1).map LineOp.item

/-- The items of one side that are suppressed: all but the first (R91). -/
def sideSuppressed (notes : List Note) (side : Side) : Nat := (notes.filter (fun n => n.side == side)).length - 1

/-- The overlay of one line begins (R95, R98 steps 3 and 4): from one list of notes, the pieces of those the line takes in
draw order, then the margin item of each side (R87, R91, R110). -/
def beginOverlayLine (frame : FrameRec) (line : LineRec) (st : StyleStack) (notes : List Note) (s : State) : LineWork :=
  let laid := layLine s frame line
  let taken := sortNotes drawnBefore (notes.filter (lineTakes frame laid))
  let items := taken.filter (fun n => hasMarginItem n && firstLineOf s frame n == some line.index)
  { laid := laid
    stack := st
    ops := taken.map LineOp.piece ++ (sideItem items .left ++ sideItem items .right)
    missing := 0
    suppressed := sideSuppressed items .left + sideSuppressed items .right }

/-- One operation of a line's overlay is drawn (R104, R110); around a margin item levels 6 and 7 are placed and emptied
(R20). -/
def drawLineOp (frame : FrameRec) (line : LineRec) (x : LineWork × State) (op : LineOp) : LineWork × State :=
  match op with
  | .piece n => (x.1, drawPiece frame line x.1.laid x.2 n)
  | .item n =>
    let placed := marginStack x.2 n x.1.stack
    let entries := marginEntries x.2 frame line placed n
    ({ x.1 with stack := clearMargin placed, missing := x.1.missing + entries.countP (fun e => e.glyph.isNone) },
      drawMargin frame line n.side entries x.2)

/-- The next operation of a line's overlay is drawn, if one is left (R104). -/
def drawNextOp (frame : FrameRec) (line : LineRec) (w : LineWork) (s : State) : LineWork × State :=
  match w.ops with
  | [] => (w, s)
  | op :: rest => drawLineOp frame line ({ w with ops := rest }, s) op

/-- All that is left of a line's overlay is drawn (R95, R98). -/
def finishOverlayLine (frame : FrameRec) (line : LineRec) (w : LineWork) (s : State) : Overlaid :=
  let x := w.ops.foldl (drawLineOp frame line) ({ w with ops := [] }, s)
  ⟨x.2, x.1.missing, x.1.suppressed⟩

/-- The overlay of one line from a list of notes, from its beginning to its end (R87, R91, R95). -/
def overlayLine (frame : FrameRec) (line : LineRec) (st : StyleStack) (notes : List Note) (s : State) : Overlaid :=
  finishOverlayLine frame line (beginOverlayLine frame line st notes s) s

/-! ### How a note request reaches frame records (R93, R94, R96) -/

/-- The lines of a record that a request reaches by its old and new ranges (R93). -/
def reachedLines (frame : FrameRec) (old new : Option (Pos × Pos)) : List Nat :=
  (frame.lines.filter (fun l =>
    old.any (fun r => rangesMeet l.start l.stop r.1 r.2) || new.any (fun r => rangesMeet l.start l.stop r.1 r.2))).map
    (·.index)

/-- Lines gathered into a range of line indices (R93). -/
def gatherRange (range : Option (Nat × Nat)) (lines : List Nat) : Option (Nat × Nat) :=
  lines.foldl (fun r i =>
    match r with
    | none => some (i, i)
    | some (lo, hi) => some (min lo i, max hi i)) range

/-- The overlay of a retint's current line has begun (R99). -/
def overlayBegun : RetintStage → Bool
  | .overlay _ => true
  | _ => false

/-- A reached line is left to a running retint job: it lies in the rest of the job's range and its overlay has not begun
(R94, R99). -/
def leftToJob (r : RetintRun) (i : Nat) : Bool :=
  decide (r.current ≤ i ∧ i ≤ r.hi) && !(i == r.current && overlayBegun r.stage)

/-- The lines that a running retint job of the record does not draw any more or does not draw at all (R94). -/
def notLeftToJob (c : Composition) (slot gen : Nat) (lines : List Nat) : List Nat :=
  match c.retints.find? (fun e => e.slot == slot && e.gen == gen && e.run.isSome) with
  | some ⟨_, _, some r⟩ => lines.filter (fun i => !leftToJob r i)
  | _ => lines

/-- A request reaches one frame record slot; the flag says whether it did (R93, R94, R96). -/
def reachFrame (flow : Nat) (old new : Option (Pos × Pos)) (slot : Nat) (c : Composition) : Composition × Bool :=
  let f := frameAt c slot
  let lines := reachedLines f old new
  if f.state == .free || f.flow != flow || lines.isEmpty then (c, false)
  else if f.state == .opened then
    if f.snapshot.isNone then (c, false) else (withFrame slot { f with late := gatherRange f.late lines } c, true)
  else if retintRuns c slot f.gen then
    (withFrame slot { f with retint := gatherRange f.retint (notLeftToJob c slot f.gen lines) } c, true)
  else
    let c' := withFrame slot { f with retint := gatherRange f.retint lines } c
    (if retintWaits c slot f.gen then c' else enqueueRetint slot f.gen c', true)

/-- A request reaches the frame records; how many it reached (R93).  Slots are visited in ascending order. -/
def reachFrames (flow : Nat) (old new : Option (Pos × Pos)) (c : Composition) : Composition × Nat :=
  (List.range Config.frameSlots).foldl (fun (a : Composition × Nat) slot =>
    let r := reachFrame flow old new slot a.1
    (r.1, if r.2 then a.2 + 1 else a.2)) (c, 0)

/-! ### Note requests (R83 to R86) -/

/-- The kind a field names, if any (R82). -/
def noteKindOf : NoteKindField → Option NoteKind
  | .fill a => some (.fill a)
  | .underline t => some (.underline t)
  | .box => some .box
  | .unknown _ => none

/-- A kind's parameter lies in its range (Table 5-1). -/
def kindInRange : NoteKindField → Bool
  | .fill a => decide (1 ≤ a ∧ a ≤ 8)
  | .underline t => decide (1 ≤ t ∧ t ≤ 4)
  | .box => true
  | .unknown _ => false

/-- A position's fields lie in their ranges (Table 5-1). -/
def posInRange (p : Pos) : Bool := decide (p.run ≤ Config.flowPlaces ∧ p.off ≤ 31)

/-- The present codes of NOTE_ADD's fields name values and the margin text is within its limit (R82). -/
def codesWellFormed (kind : Option NoteKindField) (side : Option Nat) (text : Option (List Nat)) : Bool :=
  kind.all (fun k => (noteKindOf k).isSome) && side.all (fun c => (sideOfCode c).isSome)
    && text.all (fun l => decide (l.length ≤ 32))

/-- The present numeric fields lie in their ranges (Table 5-1). -/
def fieldsInRange (flow : Option Nat) (start stop : Option Pos) (kind : Option NoteKindField) (ink glyph style : Option Nat)
    (text : Option (List Nat)) : Bool :=
  flow.all (fun n => decide (n ≤ 3)) && start.all posInRange && stop.all posInRange && kind.all kindInRange
    && ink.all (fun n => decide (n ≤ 15)) && glyph.all (fun n => decide (n ≤ 4095)) && style.all (fun n => decide (n ≤ 31))
    && text.all (fun l => l.all (fun n => decide (n ≤ 4095)))

/-- The record of a NOTE_ADD, absent when a required field is absent or a code names nothing (R82, R83). -/
def noteOf (f : NoteFields) : Option Note :=
  match f.id, f.flow, f.start, f.stop, f.kind.bind noteKindOf with
  | some id, some flow, some start, some stop, some kind =>
    some
      { id := id
        flow := flow
        start := start
        stop := stop
        kind := kind
        ink := f.ink.getD 0
        side := (f.side.bind sideOfCode).getD .none
        marginGlyph := f.marginGlyph
        marginStyle := f.marginStyle
        marginText := f.marginText.getD [] }
  | _, _, _, _, _ => none

/-- The note with an id. -/
def findNote (l : List Note) (id : Nat) : Option Note := l.find? (fun n => n.id == id)

/-- NOTE_ADD (R83). -/
def takeNoteAdd (f : NoteFields) (s : State) : State × (Status × ReplyFields) :=
  match noteOf f with
  | none => (s, .malformed, .none)
  | some n =>
    if !codesWellFormed f.kind f.side f.marginText then (s, .malformed, .none)
    else if !(decide (1 ≤ n.id ∧ n.id ≤ 65535)
        && fieldsInRange f.flow f.start f.stop f.kind f.ink f.marginGlyph f.marginStyle f.marginText
        && posLt n.start n.stop) then (s, .badArgument, .none)
    else if (findNote s.notes n.id).isSome then (s, .exists_, .none)
    else if s.notes.length ≥ Config.maxNotes then (s, .full, .none)
    else
      let r := reachFrames n.flow none (some (n.start, n.stop)) s.comp
      ({ s with notes := s.notes ++ [n], comp := r.1 }, .ok, .reached r.2)

/-- An optional stored field after a change (R84). -/
def applyChange (old : Option Nat) : Change → Option Nat
  | .keep => old
  | .clear => none
  | .set n => some n

/-- The value a change gives, if any. -/
def changeValue : Change → Option Nat
  | .set n => some n
  | _ => none

/-- The changed record (R84). -/
def changedNote (n : Note) (c : NoteChanges) : Note :=
  { id := n.id
    flow := c.flow.getD n.flow
    start := c.start.getD n.start
    stop := c.stop.getD n.stop
    kind := (c.kind.bind noteKindOf).getD n.kind
    ink := c.ink.getD n.ink
    side := (c.side.bind sideOfCode).getD n.side
    marginGlyph := applyChange n.marginGlyph c.marginGlyph
    marginStyle := applyChange n.marginStyle c.marginStyle
    marginText := c.marginText.getD n.marginText }

/-- The table with the note of an id replaced. -/
def replaceNote (l : List Note) (v : Note) : List Note := l.map (fun n => if n.id = v.id then v else n)

/-- NOTE_CHANGE (R84). -/
def takeNoteChange (id : Nat) (c : NoteChanges) (s : State) : State × (Status × ReplyFields) :=
  if !codesWellFormed c.kind c.side c.marginText then (s, .malformed, .none)
  else if decide (id = 0)
      || !fieldsInRange c.flow c.start c.stop c.kind c.ink (changeValue c.marginGlyph) (changeValue c.marginStyle)
        c.marginText then (s, .badArgument, .none)
  else
    match findNote s.notes id with
    | none => (s, .notFound, .none)
    | some n =>
      let v := changedNote n c
      if c.flow.any (fun k => k != n.flow) || !posLt v.start v.stop then (s, .badArgument, .none)
      else
        let r := reachFrames n.flow (some (n.start, n.stop)) (some (v.start, v.stop)) s.comp
        ({ s with notes := replaceNote s.notes v, comp := r.1 }, .ok, .noteChanged v r.2)

/-- NOTE_REMOVE (R85). -/
def takeNoteRemove (id : Nat) (s : State) : State × (Status × ReplyFields) :=
  if id = 0 then (s, .badArgument, .none)
  else
    match findNote s.notes id with
    | none => (s, .notFound, .none)
    | some n =>
      let r := reachFrames n.flow (some (n.start, n.stop)) none s.comp
      ({ s with notes := s.notes.filter (fun m => m.id != id), comp := r.1 }, .ok, .reached r.2)

/-- NOTE_LIST (R86). -/
def takeNoteList (afterId : Nat) (s : State) : State × (Status × ReplyFields) :=
  let l := sortNotes (fun a b => decide (a.id < b.id)) (s.notes.filter (fun n => decide (n.id > afterId)))
  (s, .ok, .noteList s.notes.length (l.take 8) (decide (l.length > 8)))

end Sys2Proof.Machine
end

