-- ==== Sys2Proof/Machine/Scheduler.lean ====
section
/-! DEFINITION. The Update Scheduler: COMMIT, REFRESH and QUEUE_INFO, the latch, the dispatch scan with the settling of a
mode, and the deghost timer's expiry (spec/07, and spec/08 8.3). -/

namespace Sys2Proof.Machine

/-! ### Rectangles given by requests (R116) -/

/-- The whole tile table as a rectangle. -/
def wholeTable (s : State) : TileRect := ⟨0, tileCols s - 1, 0, tileRows s - 1⟩

/-- Check 3 of R116: first above last, or wholly outside the tile table. -/
def badTileRect (s : State) (r : TileRect) : Bool :=
  decide (r.col0 > r.col1 ∨ r.row0 > r.row1 ∨ r.col0 ≥ tileCols s ∨ r.row0 ≥ tileRows s)

/-- A rectangle that passes check 3 clipped to the tile table (R116). -/
def clipTiles (s : State) (r : TileRect) : TileRect :=
  ⟨r.col0, min r.col1 (tileCols s - 1), r.row0, min r.row1 (tileRows s - 1)⟩

/-- COMMIT (R116). -/
def takeCommit (mode cls : Nat) (rect : Option TileRect) (s : State) : State × (Status × ReplyFields) :=
  if s.settings.power != .active then (s, .notActive, .none)
  else
    match modeOfCode mode, classOfCode cls with
    | some m, some c =>
      if rect.any (badTileRect s) then (s, .badArgument, .none)
      else if s.comp.commit != .empty then (s, .busy, .none)
      else
        let r := (rect.map (clipTiles s)).getD (wholeTable s)
        ({ s with comp := { s.comp with commit := .pending ⟨m, c, r⟩ } }, .ok, .tileRect r)
    | _, _ => (s, .malformed, .none)

/-- The rectangle of a REFRESH: the one given, clipped, or the bound of the target-newer tiles (R121). -/
def refreshRect (rect : Option TileRect) (s : State) : Option TileRect :=
  match rect with
  | some r => some (clipTiles s r)
  | none => boundTiles (tileCols s) (tilesWhere (fun _ t => t.targetNewer) 0 s.sched.tiles)

/-- REFRESH (R121). -/
def takeRefresh (mode cls : Nat) (rect : Option TileRect) (s : State) : State × (Status × ReplyFields) :=
  if s.settings.power != .active then (s, .notActive, .none)
  else
    match modeOfCode mode, classOfCode cls with
    | some m, some c =>
      if rect.any (badTileRect s) then (s, .badArgument, .none)
      else
        match refreshRect rect s with
        | none => (s, .ok, .refreshed none 0)
        | some r =>
          let q := queueUpdate ⟨r, m, c, .refresh⟩ s.sched
          ({ s with sched := q.1 }, .ok, .refreshed (some r) q.2)
    | _, _ => (s, .malformed, .none)

/-! ### The latch (R117, R118) -/

/-- The next tile of the latch's order, from index `next` on: in the rectangle and work-dirty (R117).  Indices count row
by row, so their order is the latch's. -/
def nextDirty (cols : Nat) (r : TileRect) (next : Nat) (tiles : List TileRec) : Option Nat :=
  (tilesWhere (fun i t => decide (next ≤ i) && inTileRect r (i % cols) (i / cols) && t.workDirty) 0 tiles).head?

/-- The end of a latch (R118). -/
def endLatch (c : CommitSpec) (copied : List Nat) (deferred : Nat) (s : State) : State :=
  let q :=
    match boundTiles (tileCols s) copied with
    | some r => if policyAuto s then queueUpdate ⟨r, c.mode, c.cls, .commit⟩ s.sched else (s.sched, 0)
    | none => (s.sched, 0)
  let s1 := post (.commitDone c.mode c.cls c.rect copied.length deferred q.2) { s with sched := q.1 }
  { s1 with comp := { s1.comp with commit := .empty, path := .free } }

/-- The latch goes on to its next tile, or ends when none is left. -/
def continueLatch (c : CommitSpec) (next : Nat) (copied : List Nat) (deferred : Nat) (s : State) : State :=
  match nextDirty (tileCols s) c.rect next s.sched.tiles with
  | some _ => { s with comp := { s.comp with commit := .latching c next copied deferred } }
  | none => endLatch c copied deferred s

/-- The arbiter grants the latch: the commit slot becomes LATCHING (R46). -/
def startLatch (c : CommitSpec) (s : State) : State :=
  continueLatch c 0 [] 0 { s with comp := { s.comp with path := .latch } }

/-- A tile in flight deferred by a commit (R117). -/
def deferTile (c : CommitSpec) (t : TileRec) : TileRec :=
  { t with
    state := .flightStale
    deferredMode := some (strongerOpt t.deferredMode c.mode)
    deferredPrompt := t.deferredPrompt || c.cls == .prompt }

/-- The tile table with the record of one tile changed. -/
def changeTile (i : Nat) (f : TileRec → TileRec) (s : State) : State :=
  { s with sched := { s.sched with tiles := s.sched.tiles.set i (f (s.sched.tiles.getD i TileRec.fresh)) } }

/-- LATCH_TILE: the latch acts on the next work-dirty tile of its rectangle (R117). -/
def latchTile (s : State) : State :=
  match s.comp.commit with
  | .latching c next copied deferred =>
    match nextDirty (tileCols s) c.rect next s.sched.tiles with
    | none => endLatch c copied deferred s
    | some i =>
      if inFlight (s.sched.tiles.getD i TileRec.fresh) then
        continueLatch c (i + 1) copied (deferred + 1) (changeTile i (deferTile c) s)
      else
        continueLatch c (i + 1) (copied ++ [i]) deferred
          { changeTile i copiedTile s with planes := copyTilePixels (tileCols s) i s.planes }
  | _ => s

/-! ### Eligibility and QUEUE_INFO (R126, R132) -/

/-- The tiles of a rectangle that satisfy a condition. -/
def rectTiles (cols : Nat) (r : TileRect) (p : TileRec → Bool) (tiles : List TileRec) : List Nat :=
  tilesWhere (fun i t => inTileRect r (i % cols) (i / cols) && p t) 0 tiles

/-- The record at a place of the queue is eligible (R126). -/
def eligible (s : State) (i : Nat) : Bool :=
  match s.sched.queue[i]? with
  | none => false
  | some q =>
    (rectTiles (tileCols s) q.rect inFlight s.sched.tiles).isEmpty
      && (s.sched.queue.take i).all (fun o => !tilesOverlap o.rect q.rect)

/-- A lane as QUEUE_INFO reports it (R132). -/
def laneReport : Lane → Option (Nat × TileRect)
  | .free => none
  | .driving d => some (d.id, d.rect)

/-- The number of tiles that satisfy a condition. -/
def tileCount (s : State) (p : TileRec → Bool) : Nat := s.sched.tiles.countP p

/-- QUEUE_INFO (R132). -/
def takeQueueInfo (s : State) : State × (Status × ReplyFields) :=
  (s, .ok, .queue
    { records := (List.range s.sched.queue.length).map (fun i => (s.sched.queue.getD i UpdateRec.blank, eligible s i))
      nextId := s.sched.nextId
      lanes := s.lanes.lanes.map laneReport
      policy := applied s 7
      driveHold := s.pins.driveHold
      deghostInterval := applied s 9
      deghostSeconds := s.sched.deghostMs / 1000
      commit := commitState s.comp.commit
      flight := tileCount s (fun t => t.state == .flight)
      flightStale := tileCount s (fun t => t.state == .flightStale)
      workDirty := tileCount s (fun t => t.workDirty)
      targetNewer := tileCount s (fun t => t.targetNewer)
      glassUnknown := tileCount s (fun t => !t.glassKnown)
      inked := tileCount s (fun t => decide (t.inkAge > 0)) })

/-! ### Settling and dispatch (R127, R139, R140) -/

/-- The frame table (R139). -/
def frameTable : Mode → Band → Nat
  | .clean, .b0 => 60
  | .clean, .b1 => 52
  | .clean, .b2 => 44
  | .clean, .b3 => 40
  | .clean, .b4 => 36
  | .text, .b0 => 30
  | .text, .b1 => 26
  | .text, .b2 => 22
  | .text, .b3 => 20
  | .text, .b4 => 18
  | .swift, .b0 => 10
  | .swift, .b1 => 8
  | .swift, .b2 => 6
  | .swift, .b3 => 6
  | .swift, .b4 => 5

/-- A settled mode with its two flags. -/
structure Settled where
  mode : Mode
  escalated : Bool
  degraded : Bool
  deriving DecidableEq, Repr

/-- Steps 1 to 3 of R140: `unknown` says that a tile has glass-known clear, `worn` that one has an ink age at or above the
ghost limit, `stale` is the stale state. -/
def settleMode (mode : Mode) (cls : UpdateClass) (unknown worn stale : Bool) : Settled :=
  if unknown && mode != .clean then ⟨.clean, true, false⟩
  else if worn && cls == .normal && mode != .clean then ⟨.clean, true, false⟩
  else if stale && mode == .swift then ⟨.text, false, true⟩
  else ⟨mode, false, false⟩

/-- The mode settled for a record at its dispatch (R140). -/
def settleRecord (s : State) (q : UpdateRec) : Settled :=
  settleMode q.mode q.cls
    (!(rectTiles (tileCols s) q.rect (fun t => !t.glassKnown) s.sched.tiles).isEmpty)
    (!(rectTiles (tileCols s) q.rect (fun t => decide (t.inkAge ≥ applied s 6)) s.sched.tiles).isEmpty)
    s.lanes.stale

/-- The lane loaded with a record (R127 step 3, R133, R140). -/
def loadLane (s : State) (q : UpdateRec) : Drive :=
  let m := settleRecord s q
  let b := bandOf s.lanes.temperature
  { id := q.id
    rect := q.rect
    requested := q.mode
    driven := m.mode
    cls := q.cls
    origin := q.origin
    merged := q.merged
    escalated := m.escalated
    degraded := m.degraded
    band := b
    frames := frameTable m.mode b
    framesLeft := frameTable m.mode b
    framesDue := 0 }

/-- The tiles of a dispatched rectangle become FLIGHT with the lane's number, target-newer cleared (R127 step 2). -/
def flyTiles (cols lane : Nat) (r : TileRect) (tiles : List TileRec) : List TileRec :=
  mapFrom (fun i t =>
    if inTileRect r (i % cols) (i / cols) then { t with state := .flight, lane := some lane, targetNewer := false } else t)
    0 tiles

/-- The record at a place of the queue dispatched to a lane (R127). -/
def dispatch (lane i : Nat) (s : State) : State :=
  let q := s.sched.queue.getD i UpdateRec.blank
  let s1 := { s with
    sched :=
      { s.sched with
        queue := s.sched.queue.eraseIdx i
        tiles := flyTiles (tileCols s) lane q.rect s.sched.tiles } }
  { s1 with lanes := { s1.lanes with lanes := s1.lanes.lanes.set lane (.driving (loadLane s1 q)) } }

/-- The first eligible record in the scan's order: PROMPT oldest first, then NORMAL oldest first (R125). -/
def chooseRecord (s : State) : Option Nat :=
  let e := (List.range s.sched.queue.length).filter (eligible s)
  match e.find? (fun i => (s.sched.queue.getD i UpdateRec.blank).cls == .prompt) with
  | some i => some i
  | none => e.head?

/-- One lane visited by a scan (R125). -/
def visitLane (s : State) (lane : Nat) : State :=
  if s.lanes.lanes.getD lane .free = .free then
    match chooseRecord s with
    | some i => dispatch lane i s
    | none => s
  else s

/-- DISPATCH_SCAN: the scan that a boundary has called for (R125). -/
def dispatchScan (s : State) : State :=
  if s.settings.power == .active && s.lanes.scanDue then
    (List.range Config.laneCount).foldl visitLane
      { s with
        settings := applyBoundary .dispatchBoundary s.settings
        lanes := { s.lanes with scanDue := false } }
  else s

/-! ### The deghost timer (R130, R131) -/

/-- The deghost timer expires: the part is ACTIVE, the timer is on and its elapsed time has reached the interval (R130,
R131). -/
def deghostDue (s : State) : Bool :=
  s.settings.power == .active && applied s 9 != 0 && decide (deghostLimitMs s ≤ s.sched.deghostMs)

/-- DEGHOST_EXPIRY (R131). -/
def deghostExpiry (s : State) : State :=
  if deghostDue s then
    let sched :=
      match boundTiles (tileCols s) (tilesWhere (fun _ t => decide (t.inkAge > 0)) 0 s.sched.tiles) with
      | some r => if policyAuto s then (queueUpdate ⟨r, .clean, .normal, .deghost⟩ s.sched).1 else s.sched
      | none => s.sched
    { s with sched := { sched with deghostMs := 0 } }
  else s

end Sys2Proof.Machine
end

