-- ==== Sys2Proof/Machine/Compose.lean ====
section
/-! DEFINITION. The Composition Controller: its requests, the arbiter over the raster path, and the passes of compose and
retint jobs (spec/03, spec/04 4.7, spec/05 5.5). -/

namespace Sys2Proof.Machine

/-! ### Requests -/

/-- Check 2 of COMPOSE (R43). -/
def composeInRange (f : ComposeFields) : Bool :=
  decide (1 ≤ f.tag ∧ f.tag ≤ 255 ∧ f.flow ≤ 3 ∧ f.style ≤ 31 ∧ f.start.run ≤ Config.flowPlaces ∧ f.start.off ≤ 31)

/-- The rectangle of a COMPOSE clipped to the panel (R43). -/
def composeRect (f : ComposeFields) (s : State) : PRect := clipRect f.x f.y f.w f.h (panelRect s)

/-- A clipped rectangle that no job accepts (R43). -/
def rectUnacceptable (r : PRect) : Bool := decide (r.w < 16 ∨ r.h < 4)

/-- COMPOSE (R43). -/
def takeCompose (f : ComposeFields) (s : State) : State × (Status × ReplyFields) :=
  if s.settings.power != .active then (s, .notActive, .none)
  else if !composeInRange f then (s, .badArgument, .none)
  else if rectUnacceptable (composeRect f s) then (s, .badArgument, .none)
  else if jobTagUsed s.comp f.tag then (s, .exists_, .none)
  else if s.comp.jobs.length ≥ Config.composeQueueMax then (s, .full, .none)
  else
    let j : JobSpec := ⟨f.tag, f.flow, f.start, f.style, composeRect f s, f.marginLeft, f.marginRight⟩
    ({ s with comp := { s.comp with jobs := s.comp.jobs ++ [j] } }, .ok, .compose f.tag j.rect)

/-- What a started job's ending notice names besides its counts (R54, R55). -/
def startedInfo (j : Job) : StartedInfo := ⟨j.slot, j.gen, j.overlapped, j.evicted⟩

/-- The lines recorded by a started job. -/
def jobLines (s : State) (j : Job) : List LineRec := (frameAt s.comp j.slot).lines

/-- Where an aborted job can be resumed (R55). -/
def resumePosition (s : State) (j : Job) : Pos :=
  match (jobLines s j).getLast? with
  | some l => l.stop
  | none => j.spec.start

/-- A started job leaves the Composition Controller; a running one gives up the raster path (R44, R47). -/
def dropStarted (j : Job) (c : Composition) : Composition :=
  { c with started := none, path := if j.running then .free else c.path }

/-- A started job ends ABORTED (R55). -/
def endAborted (j : Job) (found : JobState) (s : State) : State :=
  post (.composeAborted j.spec.tag found (jobLines s j).length (resumePosition s j) (some (startedInfo j)))
    { s with comp := dropStarted j (releaseFrame j.slot s.comp) }

/-- A running job ends FAILED (R54). -/
def endFailed (j : Job) (reason : FailReason) (at_ : Pos) (pass : Pass) (s : State) : State :=
  post (.composeFailed j.spec.tag reason at_ pass (jobLines s j).length (startedInfo j))
    { s with comp := dropStarted j (releaseFrame j.slot s.comp) }

/-- The started job of a state replaced. -/
def withJob (j : Job) (s : State) : State := { s with comp := { s.comp with started := some j } }

/-- COMPOSE_ABORT (R55). -/
def takeComposeAbort (tag : Nat) (s : State) : State × (Status × ReplyFields) :=
  match s.comp.jobs.find? (fun j => j.tag == tag) with
  | some q =>
    (post (.composeAborted tag .queued 0 q.start none)
        { s with comp := { s.comp with jobs := s.comp.jobs.filter (fun j => j.tag != tag) } },
      .ok, .jobState .queued)
  | none =>
    match s.comp.started with
    | none => (s, .notFound, .none)
    | some j =>
      if j.spec.tag ≠ tag then (s, .notFound, .none)
      else if j.running then (withJob { j with abortAsked := true } s, .ok, .jobState .running)
      else (endAborted j .suspended s, .ok, .jobState .suspended)

/-- The checks by which a request names a LIVE record: the refusal, if any (R57, R58, R79). -/
def frameRefusal (slot gen : Nat) (s : State) : Option Status :=
  let f := frameAt s.comp slot
  if slot ≥ Config.frameSlots then some .badArgument
  else if f.state = .free ∨ f.gen ≠ gen then some .notFound
  else if f.state = .opened then some .busy
  else none

/-- FRAME_RELEASE (R57). -/
def takeFrameRelease (slot gen : Nat) (s : State) : State × (Status × ReplyFields) :=
  match frameRefusal slot gen s with
  | some e => (s, e, .none)
  | none => ({ s with comp := releaseFrame slot s.comp }, .ok, .none)

/-- Whether a retint job of a record waits, runs or is absent (R58). -/
def retintState (c : Composition) (slot gen : Nat) : RetintState :=
  if retintRuns c slot gen then .running else if retintWaits c slot gen then .waiting else .absent

/-- FRAME_INFO (R58). -/
def takeFrameInfo (slot gen firstLine : Nat) (s : State) : State × (Status × ReplyFields) :=
  match frameRefusal slot gen s with
  | some e => (s, e, .none)
  | none =>
    let f := frameAt s.comp slot
    (s, .ok, .frame
      { flow := f.flow
        start := f.start
        stop := f.stop
        rect := f.rect
        marginLeft := f.marginLeft
        marginRight := f.marginRight
        lineCount := f.lines.length
        retint := f.retint
        retintState := retintState s.comp slot gen
        flowDepth := f.stack.flow.length
        ignored := f.stack.ignored
        mode := f.stack.mode
        lines := (f.lines.drop firstLine).take 16 })

/-- The columns of a laid item (R80). -/
def inSpan (fx x : Nat) (l : Laid) : Bool := decide (fx + pixelOf l.pen ≤ x ∧ x < fx + pixelOf l.next)

/-- What a laid item answers to a point in its span (R80). -/
def hitOf (line : LineRec) (l : Laid) : Hit × Pos :=
  match l.item with
  | .glyph g =>
    match g.pos with
    | some p => (.glyph, p)
    | none => (.hyphen, line.stop)
  | .gap g => (.gap, g.pos)

/-- A column resolved on a recomputed line (R80). -/
def resolveColumn (fx x : Nat) (line : LineRec) (laid : List Laid) : Hit × Pos :=
  match laid.find? (inSpan fx x) with
  | some l => hitOf line l
  | none =>
    match laid.head? with
    | none => (.before, line.start)
    | some l => if x < fx + pixelOf l.pen then (.before, line.start) else (.after, line.stop)

/-- A line's band holds a row (R70). -/
def bandHas (f : FrameRec) (y : Nat) (l : LineRec) : Bool :=
  decide (f.rect.y + l.top ≤ y ∧ y < f.rect.y + l.top + l.height)

/-- LOCATE (R79, R80). -/
def takeLocate (slot gen x y : Nat) (s : State) : State × (Status × ReplyFields) :=
  match frameRefusal slot gen s with
  | some e => (s, e, .none)
  | none =>
    let f := frameAt s.comp slot
    match f.lines.find? (bandHas f y) with
    | none => (s, .notFound, .none)
    | some l =>
      let r := resolveColumn f.rect.x x l (layLine s f l)
      (s, .ok, .located l.index l.start l.stop r.1 r.2)

/-! ### Starting (R49, R97) -/

/-- A job's area (R49). -/
def jobArea (s : State) (j : JobSpec) : PRect := areaOf (panelRect s) j.rect j.marginLeft j.marginRight

/-- A record's area (R49). -/
def frameArea (s : State) (f : FrameRec) : PRect := areaOf (panelRect s) f.rect f.marginLeft f.marginRight

/-- The LIVE records whose area meets a job's area (R49 step 3). -/
def overlapping (s : State) (j : JobSpec) : List Nat :=
  framesWhere (fun f => f.state == .live && rectsMeet (jobArea s j) (frameArea s f)) s.comp

/-- The lowest-numbered FREE slot, if any. -/
def freeSlot (c : Composition) : Option Nat := (framesWhere (fun f => f.state == .free) c).head?

/-- Step 4 of R49: with no FREE slot, the record first in the live order is released and named. -/
def evict (c : Composition) : Composition × Option (Nat × Nat) :=
  match freeSlot c, c.liveOrder with
  | none, slot :: _ => (releaseFrame slot c, some (slot, (frameAt c slot).gen))
  | _, _ => (c, none)

/-- A claimed slot's record (R49 step 5, R50).  Its start stack copy is made when REPLAY ends (R22); that it is the empty
LENIENT stack until then is the model's choice (log entry 30). -/
def openFrame (j : JobSpec) (gen : Nat) : FrameRec where
  state := .opened
  gen := gen
  flow := j.flow
  start := j.start
  stop := j.start
  rect := j.rect
  marginLeft := j.marginLeft
  marginRight := j.marginRight
  stack := StyleStack.empty
  lines := []
  late := none
  retint := none
  snapshot := none

/-- A queued compose job starts (R49, R16). -/
def startJob (j : JobSpec) (rest : List JobSpec) (s : State) : State :=
  let s1 := { s with settings := applyBoundary .jobBoundary s.settings }
  let hit := overlapping s1 j
  let e := evict (releaseAll hit s1.comp)
  let slot := (freeSlot e.1).getD 0
  let gen := ((frameAt e.1 slot).gen + 1) % 65536
  let job : Job :=
    { spec := j
      running := true
      limit := (flowOf s1 j.flow).length
      slot := slot
      gen := gen
      spanLength := applied s1 4
      paper := applied s1 5
      stack := stackAtStart s1.styles j.style (stackModeOf (applied s1 3))
      phase := .replay
      work := none
      current := j.start
      nextTop := 0
      stop := j.start
      missing := 0
      suppressed := 0
      overlapped := hit.length
      evicted := e.2
      abortAsked := false }
  { s1 with
    comp :=
      { withFrame slot (openFrame j gen) e.1 with jobs := rest, started := some job, path := .composeJob } }

/-- The pending retint range of a record goes to its job, which becomes RUNNING (R97). -/
def runEntry (run : RetintRun) : List RetintEntry → List RetintEntry
  | [] => []
  | e :: rest => if e.run.isNone then { e with run := some run } :: rest else e :: runEntry run rest

/-- The oldest WAITING retint job (R47). -/
def waitingRetint (c : Composition) : Option RetintEntry := c.retints.find? (fun e => e.run.isNone)

/-- A retint job starts (R97). -/
def startRetint (e : RetintEntry) (s : State) : State :=
  let s1 := { s with settings := applyBoundary .jobBoundary s.settings }
  let f := { frameAt s1.comp e.slot with retint := none }
  let range := ((frameAt s1.comp e.slot).retint).getD (0, 0)
  let run : RetintRun :=
    { lo := range.1
      hi := range.2
      current := range.1
      stage := .paper
      spanLength := applied s1 4
      paper := applied s1 5
      redrawn := 0
      suppressed := 0
      released := false
      frame := f }
  { s1 with
    comp :=
      { withFrame e.slot f s1.comp with retints := runEntry run s1.comp.retints, path := .retintJob } }

/-- RASTER_PATH_GRANT: the free path goes to the first claimant in the order of R47. -/
def rasterPathGrant (s : State) : State :=
  if s.settings.power == .active && s.comp.path == .free then
    match waitingRetint s.comp with
    | some e => startRetint e s
    | none =>
      match s.comp.commit with
      | .pending c => startLatch c s
      | _ =>
        match s.comp.started with
        | some j => { s with comp := { s.comp with started := some { j with running := true }, path := .composeJob } }
        | none =>
          match s.comp.jobs with
          | j :: rest => startJob j rest s
          | [] => s
  else s

/-! ### Boundaries and the passes of a compose job (R48, R51 to R53) -/

/-- The boundary test of the running job; `go` is what follows when it goes on (R48). -/
def atBoundary (go : State → State) (s : State) : State :=
  match s.comp.started with
  | none => s
  | some j =>
    if j.abortAsked then endAborted j .running s
    else if anyRetintWaiting s.comp then
      { s with comp := { s.comp with started := some { j with running := false }, path := .free } }
    else go s

/-- The running compose job, if there is one. -/
def runningJob (s : State) : Option Job := s.comp.started.bind (fun j => if j.running then some j else none)

/-- The number of lines of a table that have a flag. -/
def linesWith (l : List LineRec) (p : LineRec → Bool) : Nat := l.countP p

/-- COMPOSE_DONE (R53). -/
def doneNotice (j : Job) (lines : List LineRec) : NoticeBody :=
  .composeDone j.spec.tag j.slot j.gen j.stop lines.length (linesWith lines (·.loose)) (linesWith lines (·.overfull))
    (linesWith lines (·.hyphenated)) (sat16 j.missing) (sat16 j.stack.ignored) j.overlapped j.evicted (sat16 j.suppressed)

/-- The record a CLOSE pass leaves: LIVE, its end fixed, its late range now pending (R53, R96). -/
def closedFrame (j : Job) (f : FrameRec) : FrameRec :=
  { f with state := .live, stop := j.stop, retint := f.late, late := none, snapshot := none }

/-- The CLOSE pass (R53). -/
def closeJob (s : State) : State :=
  match s.comp.started with
  | none => s
  | some j =>
    let f := frameAt s.comp j.slot
    let c1 := withFrame j.slot (closedFrame j f) { s.comp with liveOrder := s.comp.liveOrder ++ [j.slot] }
    let c2 := if f.late.isSome then enqueueRetint j.slot j.gen c1 else c1
    post (doneNotice j f.lines) { s with comp := dropStarted j c2 }

/-- The overlay snapshot: the notes of a flow as the table stands (R95). -/
def snapshotOf (s : State) (flow : Nat) : List Note := s.notes.filter (fun n => n.flow == flow)

/-- The OVERLAY pass begins by taking the snapshot; one without lines ends at once (R95, R53). -/
def beginOverlay (s : State) : State :=
  match s.comp.started with
  | none => s
  | some j =>
    let f := frameAt s.comp j.slot
    let s1 := { s with comp := withFrame j.slot { f with snapshot := some (snapshotOf s f.flow) } s.comp }
    if f.lines.isEmpty then atBoundary closeJob s1 else s1

/-- The records that a started job may read (R9). -/
def jobRecs (s : State) (j : Job) : List RunRecord := (flowOf s j.spec.flow).take j.limit

/-- REPLAY_END (R21, R22): the style records before the start position are applied. -/
def replayEnd (s : State) : State :=
  match runningJob s with
  | none => s
  | some j =>
    match j.phase with
    | .replay =>
      let p := normalise (jobRecs s j) j.spec.start
      match runStyles s.styles ((jobRecs s j).take p.run) 0 j.stack with
      | (_, some e) => endFailed j e.1 e.2 .replay s
      | (st, none) =>
        let s1 := { s with comp := withFrame j.slot { frameAt s.comp j.slot with stack := st } s.comp }
        if p.run ≥ j.limit then
          atBoundary beginOverlay
            (withJob { j with stack := st, current := p, stop := ⟨j.limit, 0⟩, phase := .overlay 0 } s1)
        else atBoundary id (withJob { j with stack := st, current := p, phase := .fill } s1)
    | _ => s

/-- The end position that the stopping conditions of R52 fix after a line is recorded, if one holds. -/
def stopAfter (j : Job) (count : Nat) (stop : Pos) : Option Pos :=
  if stop.run ≥ j.limit then some ⟨j.limit, 0⟩ else if count ≥ Config.maxLines then some stop else none

/-- The line's record is appended and the end-of-line boundary follows (R51 step 4, R52). -/
def finishLine (j : Job) (w : WorkingLine) (s : State) : State :=
  let f := frameAt s.comp j.slot
  let lines := f.lines ++ [w.record]
  let s1 := { s with comp := withFrame j.slot { f with lines := lines } s.comp }
  let j1 := { j with stack := w.stack, current := w.record.stop, nextTop := w.nextTop }
  match stopAfter j lines.length w.record.stop with
  | some p => atBoundary beginOverlay (withJob { j1 with phase := .overlay 0, stop := p } s1)
  | none => atBoundary id (withJob { j1 with phase := .lines } s1)

/-- What the Line Composer sets a job's next line from. -/
def jobEnv (s : State) (j : Job) : LineEnv where
  recs := jobRecs s j
  limit := j.limit
  table := s.styles
  store := s.store
  width := 16 * j.spec.rect.w
  first := isFirstLine (jobRecs s j) (normalise (jobRecs s j) j.current)

/-- The next line of a job, set from the current position (R51 step 1).  Line 0 starts at the start position as given
(R77). -/
def jobLine (s : State) (j : Job) : WorkingLine :=
  let index := (jobLines s j).length
  setLine (jobEnv s j) j.spec.rect.x j.spec.rect.y j.nextTop index (if index = 0 then j.spec.start else j.current)
    (normalise (jobRecs s j) j.current) j.stack

/-- The fallback boxes of a glyph list. -/
def fallbacks (l : List DrawEntry) : Nat := l.countP (fun e => e.glyph.isNone)

/-- LINE_SET (R51, R52, R68). -/
def lineSet (s : State) : State :=
  match runningJob s with
  | none => s
  | some j =>
    match j.phase with
    | .lines =>
      let w := jobLine s j
      if w.record.top + w.record.height > j.spec.rect.h then
        beginOverlay (withJob { j with phase := .overlay 0, stop := j.current } s)
      else
        match lineFailure (jobEnv s j) (normalise (jobRecs s j) j.current) w.record.stop j.stack with
        | some e => endFailed j e.1 e.2 .lines s
        | none =>
          let j1 := { j with missing := j.missing + fallbacks w.entries, phase := .drawing w 0 }
          if w.entries.isEmpty then finishLine j1 w s else withJob j1 s
    | _ => s

/-- The end of a span: its boundary, and after the last one the line's end (R48, R51). -/
def afterSpan (j : Job) (w : WorkingLine) (span : Nat) (s : State) : State :=
  if span ≥ spanCount j.spanLength w.entries.length then atBoundary (finishLine j w) s else atBoundary id s

/-- A span of a compose job's line is drawn (R51 step 3, R109).  After a suspension at the end of the last span no span is
left, and the line ends. -/
def jobSpanDrawn (j : Job) (s : State) : State :=
  match j.phase with
  | .drawing w k =>
    if k ≥ spanCount j.spanLength w.entries.length then finishLine j w s
    else
      let j1 := { j with phase := .drawing w (k + 1) }
      afterSpan j1 w (k + 1) (withJob j1 (drawEntries j.spec.rect (spanEntries j.spanLength k w.entries) s))
  | _ => s

/-- The overlay snapshot of a job's record taken, when it is not taken yet: a pass resumed before its snapshot takes it
first (R95). -/
def ensureSnapshot (j : Job) (s : State) : State :=
  let f := frameAt s.comp j.slot
  if f.snapshot.isSome then s
  else { s with comp := withFrame j.slot { f with snapshot := some (snapshotOf s f.flow) } s.comp }

/-- The overlay of the line under way: the one begun, or one that begins now from the snapshot (R95). -/
def jobLineWork (j : Job) (f : FrameRec) (line : LineRec) (s : State) : LineWork :=
  j.work.getD (beginOverlayLine f line j.stack (f.snapshot.getD []) s)

/-- The OVERLAY pass's work on one line, to its end (R95). -/
def overlayJobLine (j : Job) (line : LineRec) (i : Nat) (s : State) : State :=
  let f := frameAt s.comp j.slot
  let o := finishOverlayLine f line (jobLineWork j f line s) s
  withJob
    { j with
      missing := j.missing + o.missing, suppressed := j.suppressed + o.suppressed, phase := .overlay (i + 1), work := none }
    o.state

/-- OVERLAY_LINE_DONE (R95, R53). -/
def overlayLineDone (s : State) : State :=
  match runningJob s with
  | none => s
  | some j =>
    match j.phase with
    | .overlay i =>
      let s1 := ensureSnapshot j s
      match (frameAt s.comp j.slot).lines[i]? with
      | none => atBoundary closeJob s1
      | some line =>
        atBoundary (if i + 1 = (frameAt s.comp j.slot).lines.length then atBoundary closeJob else id)
          (overlayJobLine j line i s1)
    | _ => s

/-- One operation of the line under way in the OVERLAY pass is drawn (R104, R113). -/
def jobOverlayOp (j : Job) (s : State) : State :=
  match j.phase with
  | .overlay i =>
    let s1 := ensureSnapshot j s
    let f := frameAt s1.comp j.slot
    match f.lines[i]? with
    | none => s1
    | some line =>
      let x := drawNextOp f line (jobLineWork j f line s1) s1
      withJob { j with work := some x.1 } x.2
  | _ => s

/-! ### Retint jobs (R98, R100) -/

/-- The band fill of a retint line (R98 step 1, R106). -/
def bandFill (run : RetintRun) (line : LineRec) (s : State) : State :=
  let a := frameArea s run.frame
  paperFill (clipRect a.x ((run.frame.rect.y + line.top : Nat) : Int) a.w line.height a) run.paper s

/-- The glyph list of a retint line, recomputed (R98 step 2, R76, R78). -/
def retintEntries (run : RetintRun) (line : LineRec) (s : State) : List DrawEntry :=
  recomputedEntries run.frame line (layLine s run.frame line)

/-- The overlay of a retint line begins, from the note table as it stands (R98 step 3). -/
def beginRetintOverlay (run : RetintRun) (line : LineRec) (s : State) : LineWork :=
  beginOverlayLine run.frame line (stackAtLine (flowOf s run.frame.flow) s.styles run.frame line)
    (snapshotOf s run.frame.flow) s

/-- What is left of a line's overlay once all its spans are drawn (R98 steps 3 and 4). -/
def finishRetintOverlay (run : RetintRun) (line : LineRec) (s : State) : Overlaid :=
  finishOverlayLine run.frame line (beginRetintOverlay run line s) s

/-- What is left of the four steps of R98 on a retint's current line. -/
def redrawLine (run : RetintRun) (line : LineRec) (s : State) : Overlaid :=
  match run.stage with
  | .paper =>
    let s1 := bandFill run line s
    finishRetintOverlay run line (drawEntries run.frame.rect (retintEntries run line s1) s1)
  | .glyphs entries k =>
    finishRetintOverlay run line (drawEntries run.frame.rect (entries.drop (k * run.spanLength)) s)
  | .overlay w => finishOverlayLine run.frame line w s

/-- The end of a retint job (R100). -/
def endRetint (e : RetintEntry) (run : RetintRun) (s : State) : State :=
  let c1 := { s.comp with retints := s.comp.retints.filter (fun x => x.run.isNone), path := .free }
  let c2 := if run.released || (frameAt c1 e.slot).retint.isNone then c1 else enqueueRetint e.slot e.gen c1
  post (.retintDone e.slot e.gen run.lo run.hi run.redrawn (sat16 run.suppressed) run.released) { s with comp := c2 }

/-- The RUNNING retint job's record replaced. -/
def withRun (run : RetintRun) (c : Composition) : Composition :=
  { c with retints := c.retints.map (fun e => if e.run.isSome then { e with run := some run } else e) }

/-- The RUNNING retint job that holds the raster path (R45, R47). -/
def runningRetint (s : State) : Option (RetintEntry × RetintRun) :=
  if s.comp.path = .retintJob then
    (s.comp.retints.find? (fun e => e.run.isSome)).bind (fun e => e.run.map (fun r => (e, r)))
  else none

/-- RETINT_LINE_REDRAWN (R98, R100). -/
def retintLineRedrawn (s : State) : State :=
  match runningRetint s with
  | none => s
  | some (e, run) =>
    let o := match run.frame.lines[run.current]? with
      | some line => redrawLine run line s
      | none => ⟨s, 0, 0⟩
    let run1 :=
      { run with
        current := run.current + 1, stage := .paper, redrawn := run.redrawn + 1
        suppressed := run.suppressed + o.suppressed }
    if run.released || decide (run.current ≥ run.hi) then endRetint { e with run := some run1 } run1 o.state
    else { o.state with comp := withRun run1 o.state.comp }

/-- A retint's current line at a later stage (R98). -/
def withStage (run : RetintRun) (stage : RetintStage) (s : State) : State :=
  { s with comp := withRun { run with stage := stage } s.comp }

/-- The stage of a retint line whose spans below `span` are drawn: with none left its overlay begins (R98, R99). -/
def stageAfterSpans (run : RetintRun) (line : LineRec) (entries : List DrawEntry) (span : Nat) (s : State) : RetintStage :=
  if span ≥ spanCount run.spanLength entries.length then .overlay (beginRetintOverlay run line s) else .glyphs entries span

/-- One of the operations of a retint's current line, given by its stage; a stage that it does not belong to stays
(R98, R104). -/
def retintOp (op : RetintRun → LineRec → State → State) (s : State) : State :=
  match runningRetint s with
  | none => s
  | some (_, run) =>
    match run.frame.lines[run.current]? with
    | some line => op run line s
    | none => s

/-- The band fill of a retint line as one operation (R98 step 1, R106, R113); the line is then recomputed (R98 step 2). -/
def retintBandFilled (run : RetintRun) (line : LineRec) (s : State) : State :=
  match run.stage with
  | .paper =>
    let s1 := bandFill run line s
    withStage run (stageAfterSpans run line (retintEntries run line s1) 0 s1) s1
  | _ => s

/-- A span of a retint line as one operation (R98 step 2, R109, R113). -/
def retintSpanDrawn (run : RetintRun) (line : LineRec) (s : State) : State :=
  match run.stage with
  | .glyphs entries k =>
    let s1 := drawEntries run.frame.rect (spanEntries run.spanLength k entries) s
    withStage run (stageAfterSpans run line entries (k + 1) s1) s1
  | _ => s

/-- A note piece or margin item of a retint line as one operation (R98 steps 3 and 4, R104, R113). -/
def retintOverlayOp (run : RetintRun) (line : LineRec) (s : State) : State :=
  match run.stage with
  | .overlay w =>
    let x := drawNextOp run.frame line w s
    withStage run (.overlay x.1) x.2
  | _ => s

/-! ### The drawing commands (R104) -/

/-- PAGE_PAPER_FILL (R106): the page fill of a compose job (R51), or the band fill of a retint line (R98; log entry 31). -/
def pagePaperFill (s : State) : State :=
  match runningJob s with
  | none => retintOp retintBandFilled s
  | some j =>
    match j.phase with
    | .fill => withJob { j with phase := .lines } (paperFill (jobArea s j.spec) j.paper s)
    | _ => s

/-- GLYPH_SPAN_DRAWN (R109): a span of a compose job's line or of a retint line. -/
def glyphSpanDrawn (s : State) : State :=
  match runningJob s with
  | none => retintOp retintSpanDrawn s
  | some j => jobSpanDrawn j s

/-- The holder's next note piece or margin item is drawn (R104, R113).  The table has no command for it: it is drawn while no
command waits (log entry 31). -/
def overlayOp (s : State) : State :=
  match runningJob s with
  | none => retintOp retintOverlayOp s
  | some j => jobOverlayOp j s

end Sys2Proof.Machine
end

