-- ==== Sys2Proof/Machine/FontUnit.lean ====
section
/-! DEFINITION. The Font Store's requests and events (spec/02).  A request answers `none` while its store operation runs. -/

namespace Sys2Proof.Machine

/-- Whether a request's slot number lies outside the font table. -/
def badSlot (slot : Nat) : Bool := decide (slot ≥ Config.fontSlots)

/-- A store operation is in progress (R27). -/
def opRuns (s : State) : Bool := s.store.op.isSome

/-- The first bank of a slot's font. -/
def firstBankOf (v : FontSlot) : Nat := (v.header.map (·.firstBank)).getD 0

/-- Some bank of the slot's font lies below the protection boundary (R34, R35). -/
def fontProtected (s : State) (v : FontSlot) : Bool := decide (firstBankOf v < s.store.nv.boundary)

/-- The checksum recorded in the banks for a slot, 0 when none is (R23). -/
def recordedOf (st : FontStore) (slot : Nat) : Nat := ((nvFont st slot).map (·.checksum)).getD 0

/-- A PROTECT_RAISE in progress asks for a value above a bank (R28). -/
def raiseAbove (st : FontStore) (bank : Nat) : Bool :=
  match st.op with
  | some (.protectRaise v) => decide (v > bank)
  | _ => false

/-- A store operation is taken: it is in progress and its slot is busy (R27). -/
def beginOperation (op : StoreOp) (slot : Nat) (s : State) : State :=
  { s with store := { withSlot s.store slot { fontSlot s.store slot with busy := true } with op := some op } }

/-- The banks of a header's range in order. -/
def bankRange (h : FontHeader) : List Nat := List.range' h.firstBank (h.lastBank + 1 - h.firstBank)

/-- FONT_BEGIN (R28). -/
def takeFontBegin (slot : Nat) (h : FontHeader) (s : State) : State × Option (Status × ReplyFields) :=
  if badSlot slot || !headerInRange h then (s, some (.badArgument, .none))
  else if (fontSlot s.store slot).busy then (s, some (.busy, .none))
  else if (fontSlot s.store slot).state != .empty then (s, some (.exists_, .none))
  else if (bankRange h).any (fun b => !bankFree s.store b) || decide (h.firstBank < s.store.nv.boundary) then
    (s, some (.protected_, .none))
  else if decide (s.store.writeQueue.length ≥ Config.writeQueueMax) || raiseAbove s.store h.firstBank then
    (s, some (.busy, .none))
  else
    ({ s with
        store :=
          { withSlot s.store slot ⟨.loading, false, false, some h, 0, 0⟩ with
            writeQueue := s.store.writeQueue ++ [.header slot h] } },
      some (.ok, .capacity (capacityOf h)))

/-- The first index of a GLYPH_PUT (R30). -/
def firstIndex (start : Option Nat) (cursor : Nat) : Nat := start.getD cursor

/-- Check 5 of GLYPH_PUT: the start index, or the last index assigned, is not below the glyph count (R30). -/
def indexBeyond (start : Option Nat) (first count glyphCount : Nat) : Bool :=
  start.any (fun i => decide (i ≥ glyphCount)) || decide (1 ≤ count ∧ first + count - 1 ≥ glyphCount)

/-- Consecutive indices given to records in order (R30). -/
def assignIndices : Nat → List GlyphRec → List (Nat × GlyphRec)
  | _, [] => []
  | i, g :: rest => (i, g) :: assignIndices (i + 1) rest

/-- GLYPH_PUT (R30). -/
def takeGlyphPut (slot : Nat) (start : Option Nat) (glyphs : List GlyphRec) (s : State) :
    State × Option (Status × ReplyFields) :=
  let v := fontSlot s.store slot
  let count := (v.header.map (·.glyphCount)).getD 0
  let capacity := (v.header.map capacityOf).getD 0
  let first := firstIndex start v.cursor
  let size := (glyphs.map storedSize).sum
  if badSlot slot then (s, some (.badArgument, .none))
  else if glyphs.any glyphMalformed then (s, some (.malformed, .none))
  else if v.busy then (s, some (.busy, .none))
  else if v.state == .empty then (s, some (.notFound, .none))
  else if v.state != .loading then (s, some (.exists_, .none))
  else if indexBeyond start first glyphs.length count then (s, some (.badArgument, .none))
  else if size > capacity - v.used then (s, some (.full, .none))
  else if glyphs.isEmpty then
    ({ s with store := withSlot s.store slot { v with cursor := first } }, some (.ok, .glyphPut first (capacity - v.used)))
  else if s.store.writeQueue.length ≥ Config.writeQueueMax then (s, some (.busy, .none))
  else
    ({ s with
        store :=
          { withSlot s.store slot { v with cursor := first + glyphs.length, used := v.used + size } with
            writeQueue := s.store.writeQueue ++ [.glyphs slot (assignIndices first glyphs)] } },
      some (.ok, .glyphPut (first + glyphs.length) (capacity - (v.used + size))))

/-- FONT_END (R32). -/
def takeFontEnd (slot : Nat) (s : State) : State × Option (Status × ReplyFields) :=
  let v := fontSlot s.store slot
  if badSlot slot then (s, some (.badArgument, .none))
  else if opRuns s || v.busy then (s, some (.busy, .none))
  else if v.state == .empty then (s, some (.notFound, .none))
  else if v.state != .loading then (s, some (.exists_, .none))
  else (beginOperation (.fontEnd slot s.store.writeQueue.length) slot s, none)

/-- The slot a write entry belongs to. -/
def entrySlot : WriteEntry → Nat
  | .header s _ => s
  | .glyphs s _ => s

/-- The write queue without a slot's entries that have not begun programming: the oldest entry has begun (R29, R34). -/
def dropUnstarted (slot : Nat) : List WriteEntry → List WriteEntry
  | [] => []
  | e :: rest => e :: rest.filter (fun x => entrySlot x != slot)

/-- The dropped mark programmed on what the banks hold for a slot (R34). -/
def markDropped (nv : NvStore) (slot : Nat) : NvStore :=
  withNvFont nv slot ((nv.fonts.getD slot none).map (fun f => { f with dropped := true }))

/-- FONT_DROP (R34).  The dropped mark waits for an entry of the font that is being programmed. -/
def takeFontDrop (slot : Nat) (s : State) : State × Option (Status × ReplyFields) :=
  let v := fontSlot s.store slot
  if badSlot slot then (s, some (.badArgument, .none))
  else if opRuns s || v.busy then (s, some (.busy, .none))
  else if v.state == .empty then (s, some (.notFound, .none))
  else if fontProtected s v then (s, some (.protected_, .none))
  else if fontInUse s slot then (s, some (.busy, .none))
  else
    let queue := dropUnstarted slot s.store.writeQueue
    let last := (v.header.map (·.lastBank)).getD 0
    ({ s with
        store :=
          { withSlot s.store slot { FontSlot.vacant with busy := true } with
            writeQueue := queue
            op := some (.fontDrop slot (firstBankOf v) last)
            nv := if queue.any (fun e => entrySlot e == slot) then s.store.nv else markDropped s.store.nv slot } },
      none)

/-- FONT_LOCK (R35). -/
def takeFontLock (slot : Nat) (s : State) : State × Option (Status × ReplyFields) :=
  let v := fontSlot s.store slot
  if badSlot slot then (s, some (.badArgument, .none))
  else if opRuns s || v.busy then (s, some (.busy, .none))
  else if v.state == .empty then (s, some (.notFound, .none))
  else if v.state == .loading then (s, some (.busy, .none))
  else if fontProtected s v then (s, some (.protected_, .none))
  else if fontInUse s slot then (s, some (.busy, .none))
  else if v.locked then (s, some (.ok, .fontLock (recordedOf s.store slot)))
  else (beginOperation (.fontLock slot) slot s, none)

/-- FONT_CHECK (R37). -/
def takeFontCheck (slot : Nat) (s : State) : State × Option (Status × ReplyFields) :=
  let v := fontSlot s.store slot
  if badSlot slot then (s, some (.badArgument, .none))
  else if opRuns s || v.busy then (s, some (.busy, .none))
  else if v.state == .empty then (s, some (.notFound, .none))
  else if v.state == .loading then (s, some (.busy, .none))
  else (beginOperation (.fontCheck slot) slot s, none)

/-- The kind of a store operation (R36). -/
def opKind : StoreOp → OpKind
  | .fontEnd _ _ => .fontEnd
  | .fontDrop _ _ _ => .fontDrop
  | .fontLock _ => .fontLock
  | .fontCheck _ => .fontCheck
  | .protectRaise _ => .protectRaise
  | .storeWipe => .storeWipe

/-- One slot's part of FONT_LIST (R36). -/
def fontListEntry (st : FontStore) (slot : Nat) : FontListEntry :=
  let v := fontSlot st slot
  { state := v.state
    locked := v.locked
    busy := v.busy
    header :=
      if v.state == .empty then none
      else v.header.map (fun h => (h.nameTag, h.glyphCount, h.firstBank, h.lastBank, (currentGlyphs st slot).length))
    upload := if v.state == .loading then some (v.cursor, v.used) else none
    checksum := if v.state == .ready || v.state == .damaged then some (recordedOf st slot) else none }

/-- FONT_LIST (R36). -/
def takeFontList (s : State) : State × Option (Status × ReplyFields) :=
  (s, some (.ok, .fontList s.store.nv.boundary (s.store.op.map opKind)
    ((List.range Config.fontSlots).map (fontListEntry s.store))))

/-- GLYPH_GET (R36). -/
def takeGlyphGet (slot index : Nat) (s : State) : State × Option (Status × ReplyFields) :=
  let v := fontSlot s.store slot
  if badSlot slot then (s, some (.badArgument, .none))
  else if v.busy then (s, some (.busy, .none))
  else if v.state == .empty then (s, some (.notFound, .none))
  else if v.locked then (s, some (.locked, .none))
  else if index ≥ (v.header.map (·.glyphCount)).getD 0 then (s, some (.badArgument, .none))
  else
    match currentGlyph s.store slot index with
    | none => (s, some (.notFound, .none))
    | some g => (s, some (.ok, .glyph index g))

/-- Whether a LOADING font has a bank below a value (R38). -/
def loadingBelow (st : FontStore) (value : Nat) : Bool :=
  st.slots.any (fun v => v.state == .loading && decide (firstBankOf v < value))

/-- PROTECT_RAISE (R38). -/
def takeProtectRaise (value : Nat) (s : State) : State × Option (Status × ReplyFields) :=
  if s.settings.power != .standby then (s, some (.notInStandby, .none))
  else if !([0, 4, 8, 16, 32].contains value) || decide (value < s.store.nv.boundary) then (s, some (.badArgument, .none))
  else if opRuns s then (s, some (.busy, .none))
  else if loadingBelow s.store value then (s, some (.busy, .none))
  else if value = s.store.nv.boundary then (s, some (.ok, .boundary value))
  else ({ s with store := { s.store with op := some (.protectRaise value) } }, none)

/-- STORE_WIPE (R39). -/
def takeStoreWipe (s : State) : State × Option (Status × ReplyFields) :=
  if s.settings.power != .standby then (s, some (.notInStandby, .none))
  else if opRuns s || !s.store.writeQueue.isEmpty then (s, some (.busy, .none))
  else
    ({ s with
        store :=
          { s.store with
            slots := s.store.slots.map (fun _ => { FontSlot.vacant with busy := true })
            op := some .storeWipe
            nv := { s.store.nv with wipeMark := true } } },
      none)

/-! ### Events -/

/-- A FONT_END in progress waits for one entry less (R32). -/
def opAfterEntry : Option StoreOp → Option StoreOp
  | some (.fontEnd slot waits) => some (.fontEnd slot (waits - 1))
  | op => op

/-- The slot a FONT_DROP in progress erases (R34). -/
def droppingSlot : Option StoreOp → Option Nat
  | some (.fontDrop slot _ _) => some slot
  | _ => none

/-- WRITE_ENTRY_PROGRAMMED: the oldest entry's programming completes (R29). -/
def writeEntryProgrammed (s : State) : State :=
  match s.store.writeQueue with
  | [] => s
  | e :: rest =>
    let nv := programEntry s.store.nv e
    { s with
      store :=
        { s.store with
          writeQueue := rest
          nv := if droppingSlot s.store.op = some (entrySlot e) then markDropped nv (entrySlot e) else nv
          op := opAfterEntry s.store.op } }

/-- FONT_END_COMPLETE (R32). -/
def fontEndComplete (s : State) : State :=
  match s.store.op with
  | some (.fontEnd slot 0) =>
    let v := fontSlot s.store slot
    let glyphs := currentGlyphs s.store slot
    let sum := checksumUnlocked glyphs
    let st := withSlot s.store slot ⟨.ready, false, false, v.header, 0, 0⟩
    let nv := withNvFont s.store.nv slot
      ((nvFont s.store slot).map (fun f => { f with endMark := true, checksum := sum, locked := false }))
    endOperation (.ok, .fontEnd sum glyphs.length) { s with store := { st with nv := nv } }
  | _ => s

/-- FONT_DROP_COMPLETE (R34): the erase cannot end before an entry of the font that is being programmed. -/
def fontDropComplete (s : State) : State :=
  match s.store.op with
  | some (.fontDrop slot _ _) =>
    if s.store.writeQueue.any (fun e => entrySlot e == slot) then s
    else
      let st := withSlot s.store slot FontSlot.vacant
      endOperation (.ok, .none) { s with store := { st with nv := withNvFont s.store.nv slot none } }
  | _ => s

/-- FONT_LOCK_COMPLETE (R35). -/
def fontLockComplete (s : State) : State :=
  match s.store.op with
  | some (.fontLock slot) =>
    let v := fontSlot s.store slot
    let sum := (v.header.map checksumLocked).getD 0
    let st := withSlot s.store slot { v with locked := true, busy := false }
    let nv := withNvFont s.store.nv slot
      ((nvFont s.store slot).map (fun f => { f with locked := true, checksum := sum }))
    endOperation (.ok, .fontLock sum) { s with store := { st with nv := nv } }
  | _ => s

/-- The checksum a verification computes for a slot (R33). -/
def computedOf (st : FontStore) (slot : Nat) : Nat := ((nvFont st slot).map nvChecksum).getD 0

/-- FONT_CHECK_COMPLETE (R37). -/
def fontCheckComplete (s : State) : State :=
  match s.store.op with
  | some (.fontCheck slot) =>
    let v := fontSlot s.store slot
    let recorded := recordedOf s.store slot
    let computed := computedOf s.store slot
    let isMatch := decide (computed = recorded)
    let s1 := { s with
      store := withSlot s.store slot { v with state := if isMatch then .ready else .damaged, busy := false } }
    let s2 :=
      if !isMatch && v.state == .ready then
        post (.fontDamaged slot ((v.header.map (·.nameTag)).getD []) v.locked recorded computed) s1
      else s1
    endOperation (.ok, .fontCheck isMatch recorded computed) s2
  | _ => s

/-- PROTECT_RAISE_COMPLETE (R38). -/
def protectRaiseComplete (s : State) : State :=
  match s.store.op with
  | some (.protectRaise value) =>
    endOperation (.ok, .boundary value) { s with store := { s.store with nv := { s.store.nv with boundary := value } } }
  | _ => s

/-- STORE_WIPE_COMPLETE (R39). -/
def storeWipeComplete (s : State) : State :=
  match s.store.op with
  | some .storeWipe =>
    endOperation (.ok, .none)
      { s with store := { s.store with slots := s.store.slots.map (fun v => { v with busy := false }), nv := NvStore.delivered } }
  | _ => s

/-! ### The start-up scan (R40) -/

/-- A font that the scan erases: its dropped mark is present or it has no end mark. -/
def scanErases (f : NvFont) : Bool := f.dropped || !f.endMark

/-- What the scan leaves in the banks. -/
def scanBanks (nv : NvStore) : NvStore :=
  if nv.wipeMark then NvStore.delivered
  else { nv with fonts := nv.fonts.map (fun o => o.bind (fun f => if scanErases f then none else some f)) }

/-- The number of fonts the scan erases for a dropped mark or a missing end mark (R172).  After a wipe completes there is
no header left to find. -/
def scanErased (nv : NvStore) : Nat :=
  if nv.wipeMark then 0 else nv.fonts.countP (fun o => o.any scanErases)

/-- The slot of a font found by the scan: its state from the verification, its locked flag from the mark (R40). -/
def scanSlot : Option NvFont → FontSlot
  | none => FontSlot.vacant
  | some f =>
    { state := if nvChecksum f = f.checksum then .ready else .damaged
      locked := f.locked
      busy := false
      header := some f.header
      cursor := 0
      used := 0 }

/-- The Font Store after the start-up scan (R40): the reset before it has emptied the write queue and ended the operation. -/
def scanStore (st : FontStore) : FontStore :=
  let nv := scanBanks st.nv
  { st with slots := nv.fonts.map scanSlot, nv := nv }

/-- The number of slots in a state. -/
def slotsIn (st : FontStore) (f : FontState) : Nat := st.slots.countP (fun v => v.state == f)

end Sys2Proof.Machine
end

