-- ==== Sys2Proof/Machine/LaneControl.lean ====
section
/-! DEFINITION. The Lane Controller: panel frames, completions, the temperature with its stale timer, and the time that
passes on an empty queue (spec/08). -/

namespace Sys2Proof.Machine

/-- The part is in STANDBY or ACTIVE. -/
def awake (s : State) : Bool := s.settings.power != .starting

/-! ### Panel frames (R134, R135) -/

/-- A DRIVING lane owes one more frame to a boundary (R135). -/
def oweFrame : Lane → Lane
  | .free => .free
  | .driving d => .driving { d with framesDue := d.framesDue + 1 }

/-- PANEL_FRAME_BOUNDARY (R134): the DRIVE_HOLD level is sampled here (R129). -/
def panelFrameBoundary (s : State) : State :=
  if awake s then
    { s with
      lanes :=
        { s.lanes with
          lanes := s.lanes.lanes.map oweFrame
          frameCount := (s.lanes.frameCount + 1) % 4294967296
          boundaryMs := 0
          scanDue := s.settings.power == .active && !s.pins.driveHold } }
  else s

/-- A lane's record. -/
def laneAt (s : State) (lane : Nat) : Lane := s.lanes.lanes.getD lane .free

/-- The lanes with one replaced. -/
def withLane (lane : Nat) (v : Lane) (s : State) : State :=
  { s with lanes := { s.lanes with lanes := s.lanes.lanes.set lane v } }

/-- LANE_FRAME: the lane takes the frame of a boundary (R135). -/
def laneFrame (lane : Nat) (s : State) : State :=
  match laneAt s lane with
  | .free => s
  | .driving d =>
    if d.framesDue > 0 ∧ d.framesLeft > 0 then
      withLane lane (.driving { d with framesDue := d.framesDue - 1, framesLeft := d.framesLeft - 1 }) s
    else s

/-! ### Completion (R141 to R146) -/

/-- The pixels of a tile rectangle. -/
def rectPixels (r : TileRect) : PRect :=
  ⟨r.col0 * 64, r.row0 * 64, (r.col1 + 1 - r.col0) * 64, (r.row1 + 1 - r.row0) * 64⟩

/-- The level of G after a completion over a T pixel of a level (R141). -/
def glassLevel (m : Mode) (l : Nat) : Nat :=
  match m with
  | .swift => if l < 8 then 0 else 15
  | .text => l
  | .clean => l

/-- A tile's ink age and glass-known after a completion (R142). -/
def wearTile (m : Mode) (t : TileRec) : TileRec :=
  match m with
  | .clean => { t with inkAge := 0, glassKnown := true }
  | .text => { t with inkAge := min (t.inkAge + 1) 255 }
  | .swift => { t with inkAge := min (t.inkAge + 2) 255 }

/-- A tile that leaves flight: a FLIGHT_STALE one is copied and loses its deferred fields (R143). -/
def landTile (t : TileRec) : TileRec :=
  match t.state with
  | .flightStale =>
    { copiedTile t with state := .idle, lane := none, deferredMode := none, deferredPrompt := false }
  | _ => { t with state := .idle, lane := none }

/-- The stale set of a completing lane: its FLIGHT_STALE tiles (R143). -/
def staleTiles (lane : Nat) (tiles : List TileRec) : List Nat :=
  tilesWhere (fun _ t => t.lane == some lane && t.state == .flightStale) 0 tiles

/-- The tile table after a completion (R142, R143). -/
def completeTiles (cols lane : Nat) (d : Drive) (tiles : List TileRec) : List TileRec :=
  mapFrom (fun i t =>
    let t1 := if inTileRect d.rect (i % cols) (i / cols) then wearTile d.driven t else t
    if t.lane = some lane then landTile t1 else t1) 0 tiles

/-- The strongest mode of a list of deferred modes, if any (R144). -/
def strongestOf : List (Option Mode) → Option Mode
  | [] => none
  | m :: rest =>
    match m with
    | none => strongestOf rest
    | some a => some (strongerOpt (strongestOf rest) a)

/-- The records of tiles given by their indices. -/
def tileRecs (tiles : List TileRec) (l : List Nat) : List TileRec := l.map (fun i => tiles.getD i TileRec.fresh)

/-- The FOLLOW_UP of a completion: the scheduler and the follow-up id (R144).  `before` is the tile table before the tiles
left flight. -/
def followUp (s : State) (before : List TileRec) (stale : List Nat) : Scheduler × Nat :=
  match boundTiles (tileCols s) stale with
  | none => (s.sched, 0)
  | some r =>
    if policyAuto s then
      let l := tileRecs before stale
      queueUpdate
        ⟨r, (strongestOf (l.map (·.deferredMode))).getD .swift, if l.any (·.deferredPrompt) then .prompt else .normal,
          .followUp⟩ s.sched
    else (s.sched, 0)

/-- A tile's T content holds a level other than 0 and 15 (R145).  A pixel not listed is at 15. -/
def tileHasMidTone (p : Plane) (cols i : Nat) : Bool :=
  p.any (fun e => e.2 != 0 && e.2 != 15 && e.1 % 4096 / 64 == i % cols && e.1 / 4096 / 64 == i / cols)

/-- The refine step of a completion: the scheduler and the refine id (R145). -/
def refineStep (s : State) (d : Drive) : Scheduler × Nat :=
  if d.driven == .swift && policyAuto s && applied s 8 == 1 then
    match boundTiles (tileCols s)
      (tilesWhere (fun i _ => inTileRect d.rect (i % tileCols s) (i / tileCols s) && tileHasMidTone s.planes.t (tileCols s) i)
        0 s.sched.tiles) with
    | none => (s.sched, 0)
    | some r => queueUpdate ⟨r, .text, .normal, .refine⟩ s.sched
  else (s.sched, 0)

/-- The planes and tiles after a completion, before anything is queued (R141 to R143). -/
def landLane (lane : Nat) (d : Drive) (s : State) : State :=
  let stale := staleTiles lane s.sched.tiles
  let p := { s.planes with g := planeCopy (rectPixels d.rect) (glassLevel d.driven) s.planes.t s.planes.g }
  { s with
    planes := stale.foldl (fun q i => copyTilePixels (tileCols s) i q) p
    sched := { s.sched with tiles := completeTiles (tileCols s) lane d s.sched.tiles } }

/-- The completion of a lane whose frames are all driven (R141 to R146). -/
def completeLane (lane : Nat) (d : Drive) (s : State) : State :=
  let stale := staleTiles lane s.sched.tiles
  let s1 := landLane lane d s
  let f := followUp s1 s.sched.tiles stale
  let s2 := { s1 with sched := f.1 }
  let r := refineStep s2 d
  post (.updateDone d.id d.rect d.requested d.driven d.cls d.origin d.merged d.escalated d.degraded d.band d.frames
      stale.length f.2 r.2)
    (withLane lane .free { s2 with sched := r.1 })

/-- UPDATE_COMPLETION: a lane whose frames left are 0 completes (R135, R143). -/
def updateCompletion (lane : Nat) (s : State) : State :=
  match laneAt s lane with
  | .free => s
  | .driving d => if d.framesLeft = 0 then completeLane lane d s else s

/-! ### Temperature (R136, R138) -/

/-- SET_TEMPERATURE (R136). -/
def takeSetTemperature (degrees : Int) (s : State) : State × (Status × ReplyFields) :=
  let t := (max 0 (min degrees 50)).toNat
  ({ s with lanes := { s.lanes with temperature := t, stale := false, staleMs := 0, staleStopped := false } },
    .ok, .temperature t (bandOf t))

/-- The stale timer expires: it has reached 600 s with the stale state clear (R138). -/
def staleDue (s : State) : Bool := awake s && !s.lanes.stale && decide (Config.staleLimitMs ≤ s.lanes.staleMs)

/-- TEMPERATURE_STALE (R138): the stale state is set, the timer stops at 600 s, and one notice is posted. -/
def temperatureStale (s : State) : State :=
  if staleDue s then
    post (.temperatureStale s.lanes.temperature (bandOf s.lanes.temperature))
      { s with
        lanes := { s.lanes with stale := true, staleMs := Config.staleLimitMs, staleStopped := true } }
  else s

/-! ### Time -/

/-- The stale timer one millisecond on: it stops at its expiry, which waits for its command (R138). -/
def tickStale (s : State) : Nat :=
  if awake s && !s.lanes.staleStopped && (s.lanes.stale || decide (s.lanes.staleMs < Config.staleLimitMs)) then
    s.lanes.staleMs + 1
  else s.lanes.staleMs

/-- The deghost timer one millisecond on, never past the interval (R130). -/
def tickDeghost (s : State) : Nat :=
  if s.settings.power == .active && decide (s.sched.deghostMs < deghostLimitMs s) then s.sched.deghostMs + 1
  else s.sched.deghostMs

/-- The time since the last boundary one millisecond on, never past the frame period (R134). -/
def tickBoundary (s : State) : Nat :=
  if awake s && decide (s.lanes.boundaryMs < applied s 2) then s.lanes.boundaryMs + 1 else s.lanes.boundaryMs

/-- One millisecond passes. -/
def tick (s : State) : State :=
  { s with
    lanes := { s.lanes with staleMs := tickStale s, boundaryMs := tickBoundary s }
    sched := { s.sched with deghostMs := tickDeghost s } }

end Sys2Proof.Machine
end

