-- ==== Sys2Proof/Machine/Operands.lean ====
section
/-! DEFINITION. The operand forms: the payload of each request kind, written and read by the encoding table of R150, and
the kind codes of Table 9-3. -/

namespace Sys2Proof.Machine

/-! ### Reading the forms of R150

Reading a field answers the field with the bytes left, or none when the payload is not readable. -/

/-- A one-byte number. -/
def get8 : List Byte → Option (Nat × List Byte)
  | [] => none
  | b :: t => some (b.toNat, t)

/-- A two-byte number, low byte first. -/
def get16 : List Byte → Option (Nat × List Byte)
  | a :: b :: t => some (a.toNat + 256 * b.toNat, t)
  | _ => none

/-- A one-byte signed number. -/
def getS8 : List Byte → Option (Int × List Byte)
  | [] => none
  | b :: t => some (b.toInt, t)

/-- A two-byte signed number. -/
def getS16 (l : List Byte) : Option (Int × List Byte) := do
  let (n, l) ← get16 l
  return ((BitVec.ofNat 16 n).toInt, l)

/-- The next n bytes as they are. -/
def getBytes : Nat → List Byte → Option ((List Byte) × List Byte)
  | 0, l => some ([], l)
  | _ + 1, [] => none
  | n + 1, b :: l => do
    let (bs, l) ← getBytes n l
    return (b :: bs, l)

/-- A position. -/
def getPos (l : List Byte) : Option (Pos × List Byte) := do
  let (r, l) ← get16 l
  let (o, l) ← get8 l
  return (⟨r, o⟩, l)

/-- A flag byte, 0 or 1. -/
def getFlag (l : List Byte) : Option (Bool × List Byte) := do
  let (n, l) ← get8 l
  if n = 0 then return (false, l) else if n = 1 then return (true, l) else none

/-- An optional field: presence byte 0 or 1. -/
def getOpt {α : Type} (get : List Byte → Option (α × List Byte)) (l : List Byte) : Option ((Option α) × List Byte) := do
  let (n, l) ← get8 l
  if n = 0 then return (none, l)
  else if n = 1 then
    let (a, l) ← get l
    return (some a, l)
  else none

/-- A run of n entries. -/
def getMany {α : Type} (get : List Byte → Option (α × List Byte)) : Nat → List Byte → Option ((List α) × List Byte)
  | 0, l => some ([], l)
  | n + 1, l => do
    let (a, l) ← get l
    let (as, l) ← getMany get n l
    return (a :: as, l)

/-- A list: its count, then its entries. -/
def getList {α : Type} (get : List Byte → Option (α × List Byte)) (l : List Byte) : Option ((List α) × List Byte) := do
  let (n, l) ← get16 l
  getMany get n l

/-! ### The records of requests -/

/-- The set of the eleven optional style fields, in the order of Table 1-2. -/
def putStyleFields (f : StyleFields) : List Byte :=
  putOpt put8 f.font ++ (putOpt put8 f.ink ++ (putOpt putS8 f.letterSpacing ++ (putOpt put16 f.spaceNatural
    ++ (putOpt put16 f.spaceMin ++ (putOpt put16 f.spaceMax ++ (putOpt put8 f.lineHeight ++ (putOpt put16 f.firstIndent
    ++ (putOpt put8 f.paragraphGap ++ (putOpt put8 f.alignment ++ putOpt put16 f.hyphenGlyph)))))))))

def getStyleFields (l : List Byte) : Option (StyleFields × List Byte) := do
  let (font, l) ← getOpt get8 l
  let (ink, l) ← getOpt get8 l
  let (letterSpacing, l) ← getOpt getS8 l
  let (spaceNatural, l) ← getOpt get16 l
  let (spaceMin, l) ← getOpt get16 l
  let (spaceMax, l) ← getOpt get16 l
  let (lineHeight, l) ← getOpt get8 l
  let (firstIndent, l) ← getOpt get16 l
  let (paragraphGap, l) ← getOpt get8 l
  let (alignment, l) ← getOpt get8 l
  let (hyphenGlyph, l) ← getOpt get16 l
  return (⟨font, ink, letterSpacing, spaceNatural, spaceMin, spaceMax, lineHeight, firstIndent, paragraphGap, alignment,
    hyphenGlyph⟩, l)

/-- A run record: its kind code in the order of Table 1-1, then its content. -/
def putRunRecord : RunRecord → List Byte
  | .word gs continues hyphens =>
    put8 0 ++ (putList put16 gs ++ (putOpt putFlag (if continues then some true else none)
      ++ putOpt (putList put8) (if hyphens.isEmpty then none else some hyphens)))
  | .space => put8 1
  | .hardBreak => put8 2
  | .paraEnd => put8 3
  | .stylePush id => put8 4 ++ put8 id
  | .stylePop => put8 5
  | .stylePatch f => put8 6 ++ putStyleFields f
  | .unknown c => put8 c

/-- A record of a kind code beyond the seven is read as that code alone; its owner finds it malformed (R6). -/
def getRunRecord (l : List Byte) : Option (RunRecord × List Byte) := do
  let (code, l) ← get8 l
  match code with
  | 0 => do
    let (gs, l) ← getList get16 l
    let (c, l) ← getOpt getFlag l
    let (h, l) ← getOpt (getList get8) l
    return (.word gs (c.getD false) (h.getD []), l)
  | 1 => return (.space, l)
  | 2 => return (.hardBreak, l)
  | 3 => return (.paraEnd, l)
  | 4 => do
    let (id, l) ← get8 l
    return (.stylePush id, l)
  | 5 => return (.stylePop, l)
  | 6 => do
    let (f, l) ← getStyleFields l
    return (.stylePatch f, l)
  | c => return (.unknown c, l)

def putHeader (h : FontHeader) : List Byte :=
  h.nameTag ++ (put16 h.glyphCount ++ (put8 h.ascent ++ (put8 h.descent ++ (put16 h.defaultAdvance ++ (put8 h.firstBank
    ++ put8 h.lastBank)))))

def getHeader (l : List Byte) : Option (FontHeader × List Byte) := do
  let (nameTag, l) ← getBytes 8 l
  let (glyphCount, l) ← get16 l
  let (ascent, l) ← get8 l
  let (descent, l) ← get8 l
  let (defaultAdvance, l) ← get16 l
  let (firstBank, l) ← get8 l
  let (lastBank, l) ← get8 l
  return (⟨nameTag, glyphCount, ascent, descent, defaultAdvance, firstBank, lastBank⟩, l)

/-- The first n coverage values of packed map bytes (Table 2-2). -/
def unpackCoverage : Nat → List Byte → List Nat
  | 0, _ => []
  | _, [] => []
  | 1, b :: _ => [b.toNat % 16]
  | n + 2, b :: l => b.toNat % 16 :: b.toNat / 16 :: unpackCoverage n l

/-- A glyph record in its stored form; the index field is not used and reserved bits are ignored (R26). -/
def getGlyph (l : List Byte) : Option (GlyphRec × List Byte) := do
  let (_, l) ← get16 l
  let (advance, l) ← get16 l
  let (xb, l) ← getS8 l
  let (top, l) ← getS8 l
  let (w, l) ← get8 l
  let (h, l) ← get8 l
  let (bytes, l) ← getBytes ((w % 128 * (h % 128) + 1) / 2) l
  return (⟨advance % 4096, xb, top, w % 128, h % 128, unpackCoverage (w % 128 * (h % 128)) bytes⟩, l)

def putTileRect (r : TileRect) : List Byte := put8 r.col0 ++ (put8 r.col1 ++ (put8 r.row0 ++ put8 r.row1))

def getTileRect (l : List Byte) : Option (TileRect × List Byte) := do
  let (a, l) ← get8 l
  let (b, l) ← get8 l
  let (c, l) ← get8 l
  let (d, l) ← get8 l
  return (⟨a, b, c, d⟩, l)

/-- A note kind: its code in the order of Table 5-1, then its parameter. -/
def putKindField : NoteKindField → List Byte
  | .fill a => put8 0 ++ put8 a
  | .underline t => put8 1 ++ put8 t
  | .box => put8 2
  | .unknown c => put8 c

def getKindField (l : List Byte) : Option (NoteKindField × List Byte) := do
  let (code, l) ← get8 l
  match code with
  | 0 => do
    let (a, l) ← get8 l
    return (.fill a, l)
  | 1 => do
    let (t, l) ← get8 l
    return (.underline t, l)
  | 2 => return (.box, l)
  | c => return (.unknown c, l)

/-- An optional stored field of NOTE_CHANGE: presence byte 0, 1 or, for clear, 2. -/
def putChange (put : Nat → List Byte) : Change → List Byte
  | .keep => put8 0
  | .set n => put8 1 ++ put n
  | .clear => put8 2

def getChange (get : List Byte → Option (Nat × List Byte)) (l : List Byte) : Option (Change × List Byte) := do
  let (n, l) ← get8 l
  match n with
  | 0 => return (.keep, l)
  | 1 => do
    let (a, l) ← get l
    return (.set a, l)
  | 2 => return (.clear, l)
  | _ => none

def putNoteFields (n : NoteFields) : List Byte :=
  putOpt put16 n.id ++ (putOpt put8 n.flow ++ (putOpt putPos n.start ++ (putOpt putPos n.stop ++ (putOpt putKindField n.kind
    ++ (putOpt put8 n.ink ++ (putOpt put8 n.side ++ (putOpt put16 n.marginGlyph ++ (putOpt put8 n.marginStyle
    ++ putOpt (putList put16) n.marginText))))))))

def getNoteFields (l : List Byte) : Option (NoteFields × List Byte) := do
  let (id, l) ← getOpt get16 l
  let (flow, l) ← getOpt get8 l
  let (start, l) ← getOpt getPos l
  let (stop, l) ← getOpt getPos l
  let (kind, l) ← getOpt getKindField l
  let (ink, l) ← getOpt get8 l
  let (side, l) ← getOpt get8 l
  let (marginGlyph, l) ← getOpt get16 l
  let (marginStyle, l) ← getOpt get8 l
  let (marginText, l) ← getOpt (getList get16) l
  return (⟨id, flow, start, stop, kind, ink, side, marginGlyph, marginStyle, marginText⟩, l)

def putNoteChanges (n : NoteChanges) : List Byte :=
  putOpt put8 n.flow ++ (putOpt putPos n.start ++ (putOpt putPos n.stop ++ (putOpt putKindField n.kind ++ (putOpt put8 n.ink
    ++ (putOpt put8 n.side ++ (putChange put16 n.marginGlyph ++ (putChange put8 n.marginStyle
    ++ putOpt (putList put16) n.marginText)))))))

def getNoteChanges (l : List Byte) : Option (NoteChanges × List Byte) := do
  let (flow, l) ← getOpt get8 l
  let (start, l) ← getOpt getPos l
  let (stop, l) ← getOpt getPos l
  let (kind, l) ← getOpt getKindField l
  let (ink, l) ← getOpt get8 l
  let (side, l) ← getOpt get8 l
  let (marginGlyph, l) ← getChange get16 l
  let (marginStyle, l) ← getChange get8 l
  let (marginText, l) ← getOpt (getList get16) l
  return (⟨flow, start, stop, kind, ink, side, marginGlyph, marginStyle, marginText⟩, l)

def putCompose (f : ComposeFields) : List Byte :=
  put8 f.tag ++ (put8 f.flow ++ (putPos f.start ++ (put8 f.style ++ (put16 f.x ++ (put16 f.y ++ (put16 f.w ++ (put16 f.h
    ++ (put8 f.marginLeft ++ put8 f.marginRight))))))))

def getCompose (l : List Byte) : Option (ComposeFields × List Byte) := do
  let (tag, l) ← get8 l
  let (flow, l) ← get8 l
  let (start, l) ← getPos l
  let (style, l) ← get8 l
  let (x, l) ← get16 l
  let (y, l) ← get16 l
  let (w, l) ← get16 l
  let (h, l) ← get16 l
  let (ml, l) ← get8 l
  let (mr, l) ← get8 l
  return (⟨tag, flow, start, style, x, y, w, h, ml, mr⟩, l)

/-! ### Requests -/

/-- The kind codes of Table 9-3. -/
def requestKind : Request → Nat
  | .status => 0x01
  | .reset => 0x02
  | .set _ _ => 0x03
  | .get _ => 0x04
  | .activate => 0x05
  | .standby => 0x06
  | .setTemperature _ => 0x07
  | .readNotices _ => 0x08
  | .clearNotices => 0x09
  | .flowAppend _ _ => 0x10
  | .flowClear _ => 0x11
  | .flowInfo _ => 0x12
  | .styleDefine _ _ => 0x13
  | .styleRead _ => 0x14
  | .fontBegin _ _ => 0x20
  | .glyphPut _ _ _ => 0x21
  | .fontEnd _ => 0x22
  | .fontDrop _ => 0x23
  | .fontLock _ => 0x24
  | .fontCheck _ => 0x25
  | .fontList => 0x26
  | .glyphGet _ _ => 0x27
  | .protectRaise _ => 0x28
  | .storeWipe => 0x29
  | .compose _ => 0x30
  | .composeAbort _ => 0x31
  | .frameRelease _ _ => 0x32
  | .frameInfo _ _ _ => 0x33
  | .locate _ _ _ _ => 0x34
  | .noteAdd _ => 0x38
  | .noteChange _ _ => 0x39
  | .noteRemove _ => 0x3A
  | .noteList _ => 0x3B
  | .commit _ _ _ => 0x40
  | .refresh _ _ _ => 0x41
  | .queueInfo => 0x42

/-- The 36 kinds of Table 9-3. -/
def knownKinds : List Nat :=
  [0x01, 0x02, 0x03, 0x04, 0x05, 0x06, 0x07, 0x08, 0x09, 0x10, 0x11, 0x12, 0x13, 0x14, 0x20, 0x21, 0x22, 0x23, 0x24, 0x25,
   0x26, 0x27, 0x28, 0x29, 0x30, 0x31, 0x32, 0x33, 0x34, 0x38, 0x39, 0x3A, 0x3B, 0x40, 0x41, 0x42]

/-- The payload of a request: its fields in the order of its rule's braces (R150). -/
def putRequest : Request → List Byte
  | .status => []
  | .reset => []
  | .set id v => put8 id ++ put16 v
  | .get id => put8 id
  | .activate => []
  | .standby => []
  | .setTemperature d => putS16 d
  | .readNotices m => put8 m
  | .clearNotices => []
  | .flowAppend slot records => put8 slot ++ putList putRunRecord records
  | .flowClear slot => put8 slot
  | .flowInfo slot => put8 slot
  | .styleDefine id f => put8 id ++ putStyleFields f
  | .styleRead id => put8 id
  | .fontBegin slot h => put8 slot ++ putHeader h
  | .glyphPut slot start glyphs => put8 slot ++ (putOpt put16 start ++ putList (glyphBytes 0) glyphs)
  | .fontEnd slot => put8 slot
  | .fontDrop slot => put8 slot
  | .fontLock slot => put8 slot
  | .fontCheck slot => put8 slot
  | .fontList => []
  | .glyphGet slot index => put8 slot ++ put16 index
  | .protectRaise b => put8 b
  | .storeWipe => []
  | .compose f => putCompose f
  | .composeAbort t => put8 t
  | .frameRelease slot gen => put8 slot ++ put16 gen
  | .frameInfo slot gen line => put8 slot ++ (put16 gen ++ put8 line)
  | .locate slot gen x y => put8 slot ++ (put16 gen ++ (put16 x ++ put16 y))
  | .noteAdd n => putNoteFields n
  | .noteChange id c => put16 id ++ putNoteChanges c
  | .noteRemove id => put16 id
  | .noteList id => put16 id
  | .commit m c r => put8 m ++ (put8 c ++ putOpt putTileRect r)
  | .refresh m c r => put8 m ++ (put8 c ++ putOpt putTileRect r)
  | .queueInfo => []

/-- The fields of a kind read from the front of a payload (R150). -/
def getRequest (kind : Nat) (l : List Byte) : Option (Request × List Byte) :=
  match kind with
  | 0x01 => some (.status, l)
  | 0x02 => some (.reset, l)
  | 0x03 => do
    let (id, l) ← get8 l
    let (v, l) ← get16 l
    return (.set id v, l)
  | 0x04 => do
    let (id, l) ← get8 l
    return (.get id, l)
  | 0x05 => some (.activate, l)
  | 0x06 => some (.standby, l)
  | 0x07 => do
    let (d, l) ← getS16 l
    return (.setTemperature d, l)
  | 0x08 => do
    let (m, l) ← get8 l
    return (.readNotices m, l)
  | 0x09 => some (.clearNotices, l)
  | 0x10 => do
    let (slot, l) ← get8 l
    let (records, l) ← getList getRunRecord l
    return (.flowAppend slot records, l)
  | 0x11 => do
    let (slot, l) ← get8 l
    return (.flowClear slot, l)
  | 0x12 => do
    let (slot, l) ← get8 l
    return (.flowInfo slot, l)
  | 0x13 => do
    let (id, l) ← get8 l
    let (f, l) ← getStyleFields l
    return (.styleDefine id f, l)
  | 0x14 => do
    let (id, l) ← get8 l
    return (.styleRead id, l)
  | 0x20 => do
    let (slot, l) ← get8 l
    let (h, l) ← getHeader l
    return (.fontBegin slot h, l)
  | 0x21 => do
    let (slot, l) ← get8 l
    let (start, l) ← getOpt get16 l
    let (glyphs, l) ← getList getGlyph l
    return (.glyphPut slot start glyphs, l)
  | 0x22 => do
    let (slot, l) ← get8 l
    return (.fontEnd slot, l)
  | 0x23 => do
    let (slot, l) ← get8 l
    return (.fontDrop slot, l)
  | 0x24 => do
    let (slot, l) ← get8 l
    return (.fontLock slot, l)
  | 0x25 => do
    let (slot, l) ← get8 l
    return (.fontCheck slot, l)
  | 0x26 => some (.fontList, l)
  | 0x27 => do
    let (slot, l) ← get8 l
    let (index, l) ← get16 l
    return (.glyphGet slot index, l)
  | 0x28 => do
    let (b, l) ← get8 l
    return (.protectRaise b, l)
  | 0x29 => some (.storeWipe, l)
  | 0x30 => do
    let (f, l) ← getCompose l
    return (.compose f, l)
  | 0x31 => do
    let (t, l) ← get8 l
    return (.composeAbort t, l)
  | 0x32 => do
    let (slot, l) ← get8 l
    let (gen, l) ← get16 l
    return (.frameRelease slot gen, l)
  | 0x33 => do
    let (slot, l) ← get8 l
    let (gen, l) ← get16 l
    let (line, l) ← get8 l
    return (.frameInfo slot gen line, l)
  | 0x34 => do
    let (slot, l) ← get8 l
    let (gen, l) ← get16 l
    let (x, l) ← get16 l
    let (y, l) ← get16 l
    return (.locate slot gen x y, l)
  | 0x38 => do
    let (n, l) ← getNoteFields l
    return (.noteAdd n, l)
  | 0x39 => do
    let (id, l) ← get16 l
    let (c, l) ← getNoteChanges l
    return (.noteChange id c, l)
  | 0x3A => do
    let (id, l) ← get16 l
    return (.noteRemove id, l)
  | 0x3B => do
    let (id, l) ← get16 l
    return (.noteList id, l)
  | 0x40 => do
    let (m, l) ← get8 l
    let (c, l) ← get8 l
    let (r, l) ← getOpt getTileRect l
    return (.commit m c r, l)
  | 0x41 => do
    let (m, l) ← get8 l
    let (c, l) ← get8 l
    let (r, l) ← getOpt getTileRect l
    return (.refresh m c r, l)
  | 0x42 => some (.queueInfo, l)
  | _ => none

/-- A payload is readable when it is read to its last byte, none short and none left over (R150). -/
def readRequest (kind : Nat) (payload : List Byte) : Option Request :=
  match getRequest kind payload with
  | some (r, []) => some r
  | _ => none

end Sys2Proof.Machine
end

