-- ==== Sys2Proof/Machine/SettingsTable.lean ====
section
/-! DEFINITION. The Settings Table's requests: SET, GET, ACTIVATE and STANDBY (spec/11). -/

namespace Sys2Proof.Machine

/-- The least and the greatest value of a setting (Table 11-1). -/
def settingRange : Nat → Nat × Nat
  | 0 => (640, 2560)
  | 1 => (480, 1920)
  | 2 => (10, 20)
  | 3 => (0, 1)
  | 4 => (1, 64)
  | 5 => (8, 15)
  | 6 => (1, 254)
  | 7 => (0, 1)
  | 8 => (0, 1)
  | 9 => (0, 240)
  | 10 => (1, 64)
  | 11 => (0, 1)
  | 12 => (0, 1)
  | _ => (0, 0)

/-- A written value clamped; a panel dimension is then rounded down to a multiple of 64 (R164). -/
def clampSetting (id value : Nat) : Nat :=
  let v := max (settingRange id).1 (min value (settingRange id).2)
  if id ≤ 1 then v / 64 * 64 else v

/-- A clamped value stored by the setting's class (R164). -/
def storeSetting (id value : Nat) (t : Settings) : Settings :=
  let old := setting t id
  { t with
    values := t.values.set id (if settingClass id == .live then ⟨value, none⟩ else { old with pending := some value }) }

/-- The settings whose value is a code (R164). -/
def isCoded (id : Nat) : Bool := id == 3 || id == 7

/-- SET (R164).  A write of the deghost interval restarts the deghost timer (R130). -/
def takeSet (id value : Nat) (s : State) : State × (Status × ReplyFields) :=
  if id > 12 then (s, .badArgument, .none)
  else if isCoded id && decide (value > 1) then (s, .malformed, .none)
  else if settingClass id == .standby && s.settings.power != .standby then (s, .notInStandby, .none)
  else
    let v := clampSetting id value
    let t := storeSetting id v s.settings
    ({ s with settings := t, sched := { s.sched with deghostMs := if id = 9 then 0 else s.sched.deghostMs } },
      .ok, .setting id v (settingState t id))

/-- GET (R165). -/
def takeGet (id : Nat) (s : State) : State × (Status × ReplyFields) :=
  if id > 12 then (s, .badArgument, .none)
  else
    let v := setting s.settings id
    (s, .ok, .settingInfo id (settingClass id) v.applied v.pending (settingState s.settings id))

/-- The number of tiles of the applied geometry (R114). -/
def tileTotal (s : State) : Nat := tileCols s * tileRows s

/-- The slots that hold a record. -/
def heldSlots (c : Composition) : List Nat := framesWhere (fun f => f.state != .free) c

/-- The plane fill (R103): every pixel 15, every frame record released, a fresh tile table. -/
def fillPlanes (s : State) : State :=
  { s with
    planes := ⟨[], [], []⟩
    comp := releaseAll (heldSlots s.comp) s.comp
    sched := { s.sched with tiles := List.replicate (tileTotal s) TileRec.fresh } }

/-- The applied geometry (R169). -/
def geometry (s : State) : Nat × Nat := (panelWidth s, panelHeight s)

/-- An activation in STANDBY: steps 1 to 4 of R169, and whether the planes were filled. -/
def activateStandby (s : State) : State × Bool :=
  let s1 := { s with settings := applyClass .standby s.settings }
  let filled := decide (s1.settings.lastActive ≠ some (geometry s1))
  let s2 := if filled then fillPlanes s1 else s1
  let s3 := { s2 with
    lanes := { s2.lanes with boundaryMs := if applied s 2 = applied s1 2 then s2.lanes.boundaryMs else 0 } }
  ({ s3 with settings := { s3.settings with lastActive := some (geometry s1), power := .active } }, filled)

/-- The fields of an ACTIVATE reply (R169). -/
def activatedFields (s : State) (filled : Bool) : ReplyFields := .activated (panelWidth s) (panelHeight s) (applied s 2) filled

/-- ACTIVATE (R169). -/
def takeActivate (s : State) : State × (Status × ReplyFields) :=
  if s.settings.power == .active then (s, .ok, activatedFields s false)
  else
    let a := activateStandby s
    (a.1, .ok, activatedFields a.1 a.2)

/-- Whether some condition of R170 keeps the part in ACTIVE. -/
def standbyRefused (s : State) : Bool :=
  standbyJobs s || standbyRetints s || standbyCommit s || standbyQueue s || standbyLanes s

/-- STANDBY (R170).  No scan is made from then on. -/
def takeStandby (s : State) : State × (Status × ReplyFields) :=
  if s.settings.power != .active then (s, .ok, .none)
  else if standbyRefused s then
    (s, .busy, .standbyBusy (standbyJobs s) (standbyRetints s) (standbyCommit s) (standbyQueue s) (standbyLanes s))
  else
    ({ s with settings := { s.settings with power := .standby }, lanes := { s.lanes with scanDue := false } }, .ok, .none)

end Sys2Proof.Machine
end

