-- ==== Sys2Proof/Machine/Link.lean ====
section
/-! DEFINITION. The Link Unit: receiving frames, handing requests to their owners, sending replies; the Notice Buffer's
requests, and reset and start-up (spec/09, spec/10, spec/11 11.4). -/

namespace Sys2Proof.Machine

/-! ### Requests of the Notice Buffer (R160, R161) -/

/-- READ_NOTICES (R160). -/
def takeReadNotices (max_ : Nat) (s : State) : State × (Status × ReplyFields) :=
  let m := max 1 (min max_ 16)
  let rest := s.notices.buffer.drop m
  ({ s with notices := { s.notices with buffer := rest } },
    .ok, .notices (s.notices.buffer.take m) rest.length s.notices.lost)

/-- CLEAR_NOTICES (R161). -/
def takeClearNotices (s : State) : State × (Status × ReplyFields) :=
  ({ s with notices := { s.notices with buffer := [] } }, .ok, .cleared s.notices.buffer.length s.notices.lost)

/-! ### Requests of the Link Unit (R155, R156) -/

/-- The fields of STATUS as they stand; the place of its own reply is not yet counted (R155). -/
def statusInfo (s : State) : StatusInfo where
  power := s.settings.power
  queuedJobs := s.comp.jobs.length
  started := s.comp.started.map (fun j => (j.spec.tag, startedState j))
  waitingRetints := s.comp.retints.countP (fun e => e.run.isNone)
  runningRetints := s.comp.retints.countP (fun e => e.run.isSome)
  path := s.comp.path
  commit := commitState s.comp.commit
  queueDepth := s.sched.queue.length
  busyLanes := busyLanes s.lanes.lanes
  temperature := s.lanes.temperature
  band := bandOf s.lanes.temperature
  stale := s.lanes.stale
  noticeCount := noticeCount s
  driveHold := s.pins.driveHold
  frameCount := s.lanes.frameCount
  requestQueue := s.link.requests.length
  reservedPlaces := s.link.reserved
  filledPlaces := s.link.filled.length

/-- STATUS (R155). -/
def takeStatus (s : State) : State × (Status × ReplyFields) := (s, .ok, .status (statusInfo s))

/-- RESET (R156): its effect awaits the last byte of the reply. -/
def takeReset (s : State) : State × (Status × ReplyFields) :=
  ({ s with link := { s.link with resetAwaits := true } }, .ok, .none)

/-! ### The hand-over (R152) -/

/-- A request decided when it is taken (R153). -/
def decided (tag kind : Byte) (x : State × (Status × ReplyFields)) : State := answer tag kind x.2 x.1

/-- A request of the Font Store, decided now or when its store operation ends (R27). -/
def decidedInTurn (tag kind : Byte) (x : State × Option (Status × ReplyFields)) : State := holdReply tag kind x.2 x.1

/-- A request taken by its owner (Table 9-3). -/
def ownerTakes (tag kind : Byte) (r : Request) (s : State) : State :=
  match r with
  | .status => decided tag kind (takeStatus s)
  | .reset => decided tag kind (takeReset s)
  | .set id v => decided tag kind (takeSet id v s)
  | .get id => decided tag kind (takeGet id s)
  | .activate => decided tag kind (takeActivate s)
  | .standby => decided tag kind (takeStandby s)
  | .setTemperature d => decided tag kind (takeSetTemperature d s)
  | .readNotices m => decided tag kind (takeReadNotices m s)
  | .clearNotices => decided tag kind (takeClearNotices s)
  | .flowAppend slot l => decided tag kind (takeFlowAppend slot l s)
  | .flowClear slot => decided tag kind (takeFlowClear slot s)
  | .flowInfo slot => decided tag kind (takeFlowInfo slot s)
  | .styleDefine id f => decided tag kind (takeStyleDefine id f s)
  | .styleRead id => decided tag kind (takeStyleRead id s)
  | .fontBegin slot h => decidedInTurn tag kind (takeFontBegin slot h s)
  | .glyphPut slot i l => decidedInTurn tag kind (takeGlyphPut slot i l s)
  | .fontEnd slot => decidedInTurn tag kind (takeFontEnd slot s)
  | .fontDrop slot => decidedInTurn tag kind (takeFontDrop slot s)
  | .fontLock slot => decidedInTurn tag kind (takeFontLock slot s)
  | .fontCheck slot => decidedInTurn tag kind (takeFontCheck slot s)
  | .fontList => decidedInTurn tag kind (takeFontList s)
  | .glyphGet slot i => decidedInTurn tag kind (takeGlyphGet slot i s)
  | .protectRaise b => decidedInTurn tag kind (takeProtectRaise b s)
  | .storeWipe => decidedInTurn tag kind (takeStoreWipe s)
  | .compose f => decided tag kind (takeCompose f s)
  | .composeAbort t => decided tag kind (takeComposeAbort t s)
  | .frameRelease slot gen => decided tag kind (takeFrameRelease slot gen s)
  | .frameInfo slot gen line => decided tag kind (takeFrameInfo slot gen line s)
  | .locate slot gen x y => decided tag kind (takeLocate slot gen x y s)
  | .noteAdd n => decided tag kind (takeNoteAdd n s)
  | .noteChange id c => decided tag kind (takeNoteChange id c s)
  | .noteRemove id => decided tag kind (takeNoteRemove id s)
  | .noteList id => decided tag kind (takeNoteList id s)
  | .commit m c r => decided tag kind (takeCommit m c r s)
  | .refresh m c r => decided tag kind (takeRefresh m c r s)
  | .queueInfo => decided tag kind (takeQueueInfo s)

/-- A request of a kind of Table 9-3 handed over: the checks 2 and 3 of R152, then its owner takes it. -/
def handKnown (tag kind : Byte) (r : Option Request) (s : State) : State :=
  if s.settings.power = .starting ∧ kind ≠ 0x01#8 then answer tag kind (.starting, .none) s
  else
    match r with
    | none => answer tag kind (.malformed, .none) s
    | some q => ownerTakes tag kind q s

/-- A request handed over (R152). -/
def handRequest (q : RawRequest) (s : State) : State :=
  if knownKinds.contains q.kind.toNat then handKnown q.tag q.kind (readRequest q.kind.toNat q.payload) s
  else answer q.tag q.kind (.unknownKind, .none) s

/-- HAND_OVER: the oldest queued request, when a place is FREE and no RESET awaits its effect (R152). -/
def handOver (s : State) : State :=
  match s.link.requests with
  | [] => s
  | q :: rest => if mayHandOver s then handRequest q { s with link := { s.link with requests := rest } } else s

/-! ### Arrivals (R149, R154) -/

/-- A frame has arrived whole (R154). -/
def arrive (q : RawRequest) (s : State) : State :=
  if s.link.requests.length < Config.requestQueueMax then
    { s with link := { s.link with requests := s.link.requests ++ [q] } }
  else if freePlaces s.link > 0 then answer q.tag q.kind (.overrun, .none) s
  else s

/-- One byte taken as hunt input (R149). -/
def huntByte (b : Byte) : Hunt := if b = 0xC3#8 then .length none else .hunt

/-- The two length bytes of an abandoned frame taken again as hunt input, in order (R149).  The second is the first
length byte of the frame that the first one opens. -/
def rehunt (first second : Byte) : Hunt :=
  if first = 0xC3#8 then .length (some second) else huntByte second

/-- The state after the second length byte (R149). -/
def afterLength (first second : Byte) : Hunt :=
  let n := first.toNat + 256 * second.toNat
  if n ≤ Config.maxPayload then .body n [first, second] else rehunt first second

/-- The request that the kept bytes of a frame spell: two length bytes, tag, kind, payload (Table 9-1). -/
def requestOf (kept : List Byte) : RawRequest :=
  ⟨kept.getD 2 0#8, kept.getD 3 0#8, kept.drop 4⟩

/-- A frame is judged at its second CRC byte (R149). -/
def judge (kept : List Byte) (high low : Byte) (s : State) : State :=
  if (crc16 kept).toNat = 256 * high.toNat + low.toNat then arrive (requestOf kept) s else s

/-- The receive hunt of a state replaced. -/
def withHunt (h : Hunt) (s : State) : State := { s with link := { s.link with hunt := h } }

/-- One inbound byte of a completed exchange (R149).  While the part is held in reset it is discarded (R171). -/
def receiveByte (s : State) (b : Byte) : State :=
  if s.pins.resetHeld then s
  else
    match s.link.hunt with
    | .hunt => withHunt (huntByte b) s
    | .length none => withHunt (.length (some b)) s
    | .length (some first) => withHunt (afterLength first b) s
    | .body n kept =>
      if kept.length + 1 < n + 4 then withHunt (.body n (kept ++ [b])) s else withHunt (.check (kept ++ [b]) none) s
    | .check kept none => withHunt (.check kept (some b)) s
    | .check kept (some high) => judge kept high b (withHunt .hunt s)

/-- The kind byte of a request. -/
def kindByte (r : Request) : Byte := Byte.ofNat (requestKind r)

/-- A request presented whole: with nothing queued before it and a place FREE it is handed over in the same step, otherwise
it arrives as a frame of its encoded payload does (R152, R154). -/
def present (tag : Byte) (r : Request) (s : State) : State :=
  if s.pins.resetHeld then s
  else if s.link.requests.isEmpty && mayHandOver s then handKnown tag (kindByte r) (some r) s
  else arrive ⟨tag, kindByte r, putRequest r⟩ s

/-! ### Sending (R153, R156) -/

/-- A reply is the OK of a RESET (R156). -/
def isResetReply (r : Reply) : Bool := r.kind == 0x02#8 && r.status == .ok

/-- The last byte of the earliest filled reply has been given: its place becomes FREE (R153); a RESET's reply makes the
reset take effect (R156). -/
def finishReply (r : Reply) (rest : List Reply) (s : State) : State :=
  let s1 := { s with link := { s.link with filled := rest, sent := 0, lastSent := some (replyFrame r) } }
  if isResetReply r then resetPart .request s1 else s1

/-- The outbound byte of an exchange that begins now: one cut before is given again; else the reply being sent, or the
earliest filled one, goes on; else fill (R147, R153). -/
def outgoing (l : LinkUnit) : Outgoing :=
  match l.port.out with
  | some o => o
  | none => if l.filled.isEmpty then .fill else .reply

/-- The outbound byte that an exchange gives: the next byte of the reply being sent, or fill (R153). -/
def outByte (o : Outgoing) (l : LinkUnit) : Byte :=
  match o, l.filled with
  | .reply, r :: _ => (replyFrame r).getD l.sent 0#8
  | _, _ => 0x00#8

/-- A bit given on the outbound line (R147). -/
def noteBit (b : Bool) (s : State) : State := { s with link := { s.link with givenBits := s.link.givenBits ++ [b] } }

/-- An outbound byte given whole (R153). -/
def noteGiven (b : Byte) (s : State) : State := { s with link := { s.link with given := s.link.given ++ [b] } }

/-- The outbound byte of an exchange is given whole (R153). -/
def giveByte (o : Outgoing) (s : State) : State :=
  match o, s.link.filled with
  | .reply, r :: rest =>
    let s1 := noteGiven (outByte .reply s.link) s
    if s.link.sent + 1 < (replyFrame r).length then { s1 with link := { s1.link with sent := s.link.sent + 1 } }
    else finishReply r rest s1
  | _, _ => noteGiven 0x00#8 s

/-- The byte of eight bits, the first the most significant (R147). -/
def byteOfBits (l : List Bool) : Byte := l.foldl (fun b x => b <<< 1 ||| (if x then 1#8 else 0#8)) 0#8

/-- The bits of a byte in the order of the line (R147). -/
def bitsOfByte (b : Byte) : List Bool := (List.range 8).map b.getMsbD

/-- An exchange of a byte completes at its eighth clock: the inbound byte goes to the receive hunt and the outbound byte `o`
is given (R147).  The arrival is taken before the place that the outbound byte frees (log entry 21). -/
def exchange (o : Outgoing) (b : Byte) (s : State) : State :=
  giveByte o (receiveByte { s with link := { s.link with port := Port.idle } } b)

/-- A clock cycle of the selected port: the next bit of the outbound byte is given, most significant bit first, and an
inbound bit is taken; the eighth completes the exchange (R147). -/
def clockBit (bit : Bool) (s : State) : State :=
  let o := outgoing s.link
  let bits := s.link.port.bits ++ [bit]
  let s1 := noteBit ((outByte o s.link).getMsbD s.link.port.bits.length) s
  if bits.length < 8 then { s1 with link := { s1.link with port := ⟨bits, some o⟩ } }
  else exchange o (byteOfBits bits) s1

/-- Select is released: the inbound bits of an unfinished exchange are discarded, and its outbound byte is kept to be given
again (R147). -/
def releaseSelect (s : State) : State :=
  { s with link := { s.link with port := { s.link.port with bits := [] } } }

/-- What the host does at the port (R147). -/
def portEvent (s : State) : PortEvent → State
  | .byte b => (bitsOfByte b).foldl (fun s bit => clockBit bit s) s
  | .clock bit => clockBit bit s
  | .release => releaseSelect s

/-- The record of given bits and bytes begins anew (log entry 16). -/
def clearGiven (s : State) : State := { s with link := { s.link with givenBits := [], given := [] } }

/-- Port events in order (R147). -/
def portEvents (l : List PortEvent) (s : State) : State := l.foldl portEvent (clearGiven s)

/-- The bytes still to be given before the earliest filled reply has been given whole (R147, R153). -/
def owedBytes (l : LinkUnit) (r : Reply) : List Byte :=
  (if l.port.out = some .fill then [0x00#8] else []) ++ (replyFrame r).drop l.sent

/-- The clocks still to come before the earliest filled reply has been given whole, those of an exchange under way counted
(R147). -/
def owedClocks (l : LinkUnit) (r : Reply) : Nat := 8 * (owedBytes l r).length - l.port.bits.length

/-- REPLY_SENT: the host clocks on until the last byte of the earliest filled reply is given (R153).  Its data line is low
meanwhile, as R147's programming note advises (log entry 16): each exchange takes an inbound byte, the first with the bits of
an exchange under way. -/
def replySent (s : State) : State :=
  match s.link.filled with
  | [] => s
  | r :: _ => portEvents (List.replicate (owedClocks s.link r) (.clock false)) s

/-! ### Pins and start-up (R129, R171, R172) -/

/-- RESET_PIN (R171). -/
def assertReset (s : State) : State :=
  let r := resetPart .pin s
  { r with pins := { r.pins with resetHeld := true } }

/-- RESET_PIN_RELEASE (R171).  Whether the bits of an exchange that began while the pin held the part and is unfinished now
still count is left open by R147 and R171: the model keeps them, and the byte that they complete goes to the receive hunt
(DESIGN CHOICE of log entry 32). -/
def releaseReset (s : State) : State := { s with pins := { s.pins with resetHeld := false } }

/-- The STARTED notice of a scanned store; `before` is the nonvolatile content that the scan found (R172). -/
def startedNotice (before : NvStore) (s : State) : NoticeBody :=
  .started s.settings.cause (slotsIn s.store .ready) (slotsIn s.store .damaged) (slotsIn s.store .empty) (scanErased before)
    before.wipeMark s.store.nv.boundary s.lanes.temperature s.lanes.stale

/-- STARTUP_SCAN_END (R40, R172): the stale timer and the first frame period run from here (R134, R138). -/
def startupScanEnd (s : State) : State :=
  if s.settings.power = .starting ∧ running s = true then
    let s1 := { s with store := scanStore s.store }
    let s2 := post (startedNotice s.store.nv s1) s1
    { s2 with
      settings := { s2.settings with power := .standby }
      lanes := { s2.lanes with boundaryMs := 0, staleMs := 0 } }
  else s

/-- DRIVE_HOLD_LEVEL_CHANGE (R129). -/
def setDriveHold (level : Bool) (s : State) : State := { s with pins := { s.pins with driveHold := level } }

end Sys2Proof.Machine
end

