-- ==== Sys2Proof/Machine/ExecCompose.lean ====
section
/-! DEFINITION. The meanings of the commands of compose and retint jobs, frame records and the raster path (spec/03, spec/04, spec/05 5.5, spec/06). -/

namespace Sys2Proof.Machine

/-- COMPOSE (R43). -/
def execCompose (tag : Byte) (fields : ComposeFields) (s : State) : Result := .next (present tag (.compose fields) s)

/-- COMPOSE_ABORT (R55). -/
def execComposeAbort (tag : Byte) (jobTag : Nat) (s : State) : Result := .next (present tag (.composeAbort jobTag) s)

/-- FRAME_RELEASE (R57). -/
def execFrameRelease (tag : Byte) (slot : Nat) (gen : Nat) (s : State) : Result := .next (present tag (.frameRelease slot gen) s)

/-- FRAME_INFO (R58). -/
def execFrameInfo (tag : Byte) (slot : Nat) (gen : Nat) (firstLine : Nat) (s : State) : Result := .next (present tag (.frameInfo slot gen firstLine) s)

/-- LOCATE (R79, R80). -/
def execLocate (tag : Byte) (slot : Nat) (gen : Nat) (x : Nat) (y : Nat) (s : State) : Result := .next (present tag (.locate slot gen x y) s)

/-- RASTER_PATH_GRANT (R47, R49, R97, R117). -/
def execRasterPathGrant (s : State) : Result := .next (rasterPathGrant s)

/-- REPLAY_END (R21). -/
def execReplayEnd (s : State) : Result := .next (replayEnd s)

/-- PAGE_PAPER_FILL (R106). -/
def execPagePaperFill (s : State) : Result := .next (pagePaperFill s)

/-- LINE_SET (R51). -/
def execLineSet (s : State) : Result := .next (lineSet s)

/-- GLYPH_SPAN_DRAWN (R109). -/
def execGlyphSpanDrawn (s : State) : Result := .next (glyphSpanDrawn s)

/-- OVERLAY_LINE_DONE (R95, R53). -/
def execOverlayLineDone (s : State) : Result := .next (overlayLineDone s)

/-- RETINT_LINE_REDRAWN (R98, R100). -/
def execRetintLineRedrawn (s : State) : Result := .next (retintLineRedrawn s)

end Sys2Proof.Machine
end

