-- ==== Sys2Proof/Machine/ExecFlow.lean ====
section
/-! DEFINITION. The meanings of the commands of flows and styles (spec/01). -/

namespace Sys2Proof.Machine

/-- FLOW_APPEND (R7). -/
def execFlowAppend (tag : Byte) (slot : Nat) (records : List RunRecord) (s : State) : Result := .next (present tag (.flowAppend slot records) s)

/-- FLOW_CLEAR (R10). -/
def execFlowClear (tag : Byte) (slot : Nat) (s : State) : Result := .next (present tag (.flowClear slot) s)

/-- FLOW_INFO (R11). -/
def execFlowInfo (tag : Byte) (slot : Nat) (s : State) : Result := .next (present tag (.flowInfo slot) s)

/-- STYLE_DEFINE (R14). -/
def execStyleDefine (tag : Byte) (id : Nat) (fields : StyleFields) (s : State) : Result := .next (present tag (.styleDefine id fields) s)

/-- STYLE_READ (R15). -/
def execStyleRead (tag : Byte) (id : Nat) (s : State) : Result := .next (present tag (.styleRead id) s)

end Sys2Proof.Machine
end

