-- ==== Sys2Proof/Machine/ExecFont.lean ====
section
/-! DEFINITION. The meanings of the commands of the Font Store's requests and events (spec/02). -/

namespace Sys2Proof.Machine

/-- FONT_BEGIN (R28). -/
def execFontBegin (tag : Byte) (slot : Nat) (header : FontHeader) (s : State) : Result := .next (present tag (.fontBegin slot header) s)

/-- GLYPH_PUT (R30). -/
def execGlyphPut (tag : Byte) (slot : Nat) (start : Option Nat) (glyphs : List GlyphRec) (s : State) : Result := .next (present tag (.glyphPut slot start glyphs) s)

/-- FONT_END (R32). -/
def execFontEnd (tag : Byte) (slot : Nat) (s : State) : Result := .next (present tag (.fontEnd slot) s)

/-- FONT_END_COMPLETE (R32). -/
def execFontEndComplete (s : State) : Result := .next (fontEndComplete s)

/-- FONT_DROP (R34). -/
def execFontDrop (tag : Byte) (slot : Nat) (s : State) : Result := .next (present tag (.fontDrop slot) s)

/-- FONT_DROP_COMPLETE (R34). -/
def execFontDropComplete (s : State) : Result := .next (fontDropComplete s)

/-- FONT_LOCK (R35). -/
def execFontLock (tag : Byte) (slot : Nat) (s : State) : Result := .next (present tag (.fontLock slot) s)

/-- FONT_LOCK_COMPLETE (R35). -/
def execFontLockComplete (s : State) : Result := .next (fontLockComplete s)

/-- FONT_CHECK (R37). -/
def execFontCheck (tag : Byte) (slot : Nat) (s : State) : Result := .next (present tag (.fontCheck slot) s)

/-- FONT_CHECK_COMPLETE (R37). -/
def execFontCheckComplete (s : State) : Result := .next (fontCheckComplete s)

/-- FONT_LIST (R36). -/
def execFontList (tag : Byte) (s : State) : Result := .next (present tag .fontList s)

/-- GLYPH_GET (R36). -/
def execGlyphGet (tag : Byte) (slot : Nat) (index : Nat) (s : State) : Result := .next (present tag (.glyphGet slot index) s)

/-- PROTECT_RAISE (R38). -/
def execProtectRaise (tag : Byte) (boundary : Nat) (s : State) : Result := .next (present tag (.protectRaise boundary) s)

/-- PROTECT_RAISE_COMPLETE (R38). -/
def execProtectRaiseComplete (s : State) : Result := .next (protectRaiseComplete s)

/-- STORE_WIPE (R39). -/
def execStoreWipe (tag : Byte) (s : State) : Result := .next (present tag .storeWipe s)

/-- STORE_WIPE_COMPLETE (R39). -/
def execStoreWipeComplete (s : State) : Result := .next (storeWipeComplete s)

/-- WRITE_ENTRY_PROGRAMMED (R29). -/
def execWriteEntryProgrammed (s : State) : Result := .next (writeEntryProgrammed s)

end Sys2Proof.Machine
end

