-- ==== Sys2Proof/Machine/ExecLink.lean ====
section
/-! DEFINITION. The meanings of the commands of the link: frames in, hand-over, replies out, and the Link Unit's own requests (spec/09). -/

namespace Sys2Proof.Machine

/-- FRAME_RECEIVED: the host clocks the port; inbound bytes are taken by the receive hunt and a frame that they complete is
judged, while outbound bytes are given (R147, R149, R153, R154). -/
def execFrameReceived (events : List PortEvent) (s : State) : Result := .next (portEvents events s)

/-- HAND_OVER (R152). -/
def execHandOver (s : State) : Result := .next (handOver s)

/-- REPLY_SENT (R153, R156). -/
def execReplySent (s : State) : Result := .next (replySent s)

/-- STATUS (R155). -/
def execStatus (tag : Byte) (s : State) : Result := .next (present tag .status s)

/-- RESET (R156). -/
def execReset (tag : Byte) (s : State) : Result := .next (present tag .reset s)

/-- ABANDONED_FRAME: the exchange of the second length byte of an opened frame, as the receive hunt takes it (R147, R149). -/
def execAbandonedFrame (second : Byte) (s : State) : Result := .next (portEvents [.byte second] s)

end Sys2Proof.Machine
end

