-- ==== Sys2Proof/Machine/ExecNotes.lean ====
section
/-! DEFINITION. The meanings of the commands of the Note Table's requests (spec/05). -/

namespace Sys2Proof.Machine

/-- NOTE_ADD (R83). -/
def execNoteAdd (tag : Byte) (note : NoteFields) (s : State) : Result := .next (present tag (.noteAdd note) s)

/-- NOTE_CHANGE (R84). -/
def execNoteChange (tag : Byte) (id : Nat) (changes : NoteChanges) (s : State) : Result := .next (present tag (.noteChange id changes) s)

/-- NOTE_REMOVE (R85). -/
def execNoteRemove (tag : Byte) (id : Nat) (s : State) : Result := .next (present tag (.noteRemove id) s)

/-- NOTE_LIST (R86). -/
def execNoteList (tag : Byte) (afterId : Nat) (s : State) : Result := .next (present tag (.noteList afterId) s)

end Sys2Proof.Machine
end

