-- ==== Sys2Proof/Machine/ExecPins.lean ====
section
/-! DEFINITION. The meanings of the commands of the input pins and start-up (spec/07 R129, spec/11 11.4). -/

namespace Sys2Proof.Machine

/-- RESET_PIN (R171). -/
def execResetPin (s : State) : Result := .next (assertReset s)

/-- RESET_PIN_RELEASE (R171). -/
def execResetPinRelease (s : State) : Result := .next (releaseReset s)

/-- STARTUP_SCAN_END (R172). -/
def execStartupScanEnd (s : State) : Result := .next (startupScanEnd s)

/-- DRIVE_HOLD_LEVEL_CHANGE (R129). -/
def execDriveHoldLevelChange (asserted : Bool) (s : State) : Result := .next (setDriveHold asserted s)

end Sys2Proof.Machine
end

