-- ==== Sys2Proof/Machine/ExecSettings.lean ====
section
/-! DEFINITION. The meanings of the commands of settings, power states, temperature reports and notices (spec/08, spec/10, spec/11). -/

namespace Sys2Proof.Machine

/-- SET (R164). -/
def execSet (tag : Byte) (id : Nat) (value : Nat) (s : State) : Result := .next (present tag (.set id value) s)

/-- GET (R165). -/
def execGet (tag : Byte) (id : Nat) (s : State) : Result := .next (present tag (.get id) s)

/-- ACTIVATE (R169). -/
def execActivate (tag : Byte) (s : State) : Result := .next (present tag .activate s)

/-- STANDBY (R170). -/
def execStandby (tag : Byte) (s : State) : Result := .next (present tag .standby s)

/-- SET_TEMPERATURE (R136). -/
def execSetTemperature (tag : Byte) (degrees : Int) (s : State) : Result := .next (present tag (.setTemperature degrees) s)

/-- READ_NOTICES (R160). -/
def execReadNotices (tag : Byte) (max : Nat) (s : State) : Result := .next (present tag (.readNotices max) s)

/-- CLEAR_NOTICES (R161). -/
def execClearNotices (tag : Byte) (s : State) : Result := .next (present tag .clearNotices s)

end Sys2Proof.Machine
end

