-- ==== Sys2Proof/Machine/ExecUpdates.lean ====
section
/-! DEFINITION. The meanings of the commands of commits, updates and lanes (spec/07, spec/08). -/

namespace Sys2Proof.Machine

/-- COMMIT (R116). -/
def execCommit (tag : Byte) (mode : Nat) (cls : Nat) (rect : Option TileRect) (s : State) : Result := .next (present tag (.commit mode cls rect) s)

/-- REFRESH (R121). -/
def execRefresh (tag : Byte) (mode : Nat) (cls : Nat) (rect : Option TileRect) (s : State) : Result := .next (present tag (.refresh mode cls rect) s)

/-- QUEUE_INFO (R132). -/
def execQueueInfo (tag : Byte) (s : State) : Result := .next (present tag .queueInfo s)

/-- LATCH_TILE (R117, R118). -/
def execLatchTile (s : State) : Result := .next (latchTile s)

/-- PANEL_FRAME_BOUNDARY (R134). -/
def execPanelFrameBoundary (s : State) : Result := .next (panelFrameBoundary s)

/-- LANE_FRAME (R135). -/
def execLaneFrame (lane : Nat) (s : State) : Result := .next (laneFrame lane s)

/-- DISPATCH_SCAN (R125). -/
def execDispatchScan (s : State) : Result := .next (dispatchScan s)

/-- UPDATE_COMPLETION (R143). -/
def execUpdateCompletion (lane : Nat) (s : State) : Result := .next (updateCompletion lane s)

/-- DEGHOST_EXPIRY (R131). -/
def execDeghostExpiry (s : State) : Result := .next (deghostExpiry s)

/-- TEMPERATURE_STALE (R138). -/
def execTemperatureStale (s : State) : Result := .next (temperatureStale s)

end Sys2Proof.Machine
end

