-- ==== Sys2Proof/Machine/Dispatch.lean ====
section
/-! DEFINITION. The meaning of each command, one arm per constructor. -/

namespace Sys2Proof.Machine

def exec (i : Instr) (s : State) : Host.Outcome State Fault Refusal :=
  match i with
  | .frameReceived events => Sys2Proof.Machine.execFrameReceived events s
  | .handOver => Sys2Proof.Machine.execHandOver s
  | .replySent => Sys2Proof.Machine.execReplySent s
  | .status tag => Sys2Proof.Machine.execStatus tag s
  | .reset tag => Sys2Proof.Machine.execReset tag s
  | .set tag id value => Sys2Proof.Machine.execSet tag id value s
  | .get tag id => Sys2Proof.Machine.execGet tag id s
  | .activate tag => Sys2Proof.Machine.execActivate tag s
  | .standby tag => Sys2Proof.Machine.execStandby tag s
  | .setTemperature tag degrees => Sys2Proof.Machine.execSetTemperature tag degrees s
  | .readNotices tag max => Sys2Proof.Machine.execReadNotices tag max s
  | .clearNotices tag => Sys2Proof.Machine.execClearNotices tag s
  | .flowAppend tag slot records => Sys2Proof.Machine.execFlowAppend tag slot records s
  | .flowClear tag slot => Sys2Proof.Machine.execFlowClear tag slot s
  | .flowInfo tag slot => Sys2Proof.Machine.execFlowInfo tag slot s
  | .styleDefine tag id fields => Sys2Proof.Machine.execStyleDefine tag id fields s
  | .styleRead tag id => Sys2Proof.Machine.execStyleRead tag id s
  | .fontBegin tag slot header => Sys2Proof.Machine.execFontBegin tag slot header s
  | .glyphPut tag slot start glyphs => Sys2Proof.Machine.execGlyphPut tag slot start glyphs s
  | .fontEnd tag slot => Sys2Proof.Machine.execFontEnd tag slot s
  | .fontEndComplete => Sys2Proof.Machine.execFontEndComplete s
  | .fontDrop tag slot => Sys2Proof.Machine.execFontDrop tag slot s
  | .fontDropComplete => Sys2Proof.Machine.execFontDropComplete s
  | .fontLock tag slot => Sys2Proof.Machine.execFontLock tag slot s
  | .fontLockComplete => Sys2Proof.Machine.execFontLockComplete s
  | .fontCheck tag slot => Sys2Proof.Machine.execFontCheck tag slot s
  | .fontCheckComplete => Sys2Proof.Machine.execFontCheckComplete s
  | .fontList tag => Sys2Proof.Machine.execFontList tag s
  | .glyphGet tag slot index => Sys2Proof.Machine.execGlyphGet tag slot index s
  | .protectRaise tag boundary => Sys2Proof.Machine.execProtectRaise tag boundary s
  | .protectRaiseComplete => Sys2Proof.Machine.execProtectRaiseComplete s
  | .storeWipe tag => Sys2Proof.Machine.execStoreWipe tag s
  | .storeWipeComplete => Sys2Proof.Machine.execStoreWipeComplete s
  | .writeEntryProgrammed => Sys2Proof.Machine.execWriteEntryProgrammed s
  | .compose tag fields => Sys2Proof.Machine.execCompose tag fields s
  | .composeAbort tag jobTag => Sys2Proof.Machine.execComposeAbort tag jobTag s
  | .frameRelease tag slot gen => Sys2Proof.Machine.execFrameRelease tag slot gen s
  | .frameInfo tag slot gen firstLine => Sys2Proof.Machine.execFrameInfo tag slot gen firstLine s
  | .locate tag slot gen x y => Sys2Proof.Machine.execLocate tag slot gen x y s
  | .noteAdd tag note => Sys2Proof.Machine.execNoteAdd tag note s
  | .noteChange tag id changes => Sys2Proof.Machine.execNoteChange tag id changes s
  | .noteRemove tag id => Sys2Proof.Machine.execNoteRemove tag id s
  | .noteList tag afterId => Sys2Proof.Machine.execNoteList tag afterId s
  | .commit tag mode cls rect => Sys2Proof.Machine.execCommit tag mode cls rect s
  | .refresh tag mode cls rect => Sys2Proof.Machine.execRefresh tag mode cls rect s
  | .queueInfo tag => Sys2Proof.Machine.execQueueInfo tag s
  | .rasterPathGrant => Sys2Proof.Machine.execRasterPathGrant s
  | .replayEnd => Sys2Proof.Machine.execReplayEnd s
  | .pagePaperFill => Sys2Proof.Machine.execPagePaperFill s
  | .lineSet => Sys2Proof.Machine.execLineSet s
  | .glyphSpanDrawn => Sys2Proof.Machine.execGlyphSpanDrawn s
  | .overlayLineDone => Sys2Proof.Machine.execOverlayLineDone s
  | .retintLineRedrawn => Sys2Proof.Machine.execRetintLineRedrawn s
  | .latchTile => Sys2Proof.Machine.execLatchTile s
  | .panelFrameBoundary => Sys2Proof.Machine.execPanelFrameBoundary s
  | .laneFrame lane => Sys2Proof.Machine.execLaneFrame lane s
  | .dispatchScan => Sys2Proof.Machine.execDispatchScan s
  | .updateCompletion lane => Sys2Proof.Machine.execUpdateCompletion lane s
  | .deghostExpiry => Sys2Proof.Machine.execDeghostExpiry s
  | .temperatureStale => Sys2Proof.Machine.execTemperatureStale s
  | .resetPin => Sys2Proof.Machine.execResetPin s
  | .resetPinRelease => Sys2Proof.Machine.execResetPinRelease s
  | .startupScanEnd => Sys2Proof.Machine.execStartupScanEnd s
  | .abandonedFrame second => Sys2Proof.Machine.execAbandonedFrame second s
  | .driveHoldLevelChange asserted => Sys2Proof.Machine.execDriveHoldLevelChange asserted s

end Sys2Proof.Machine
end

