-- ==== Sys2Proof/Machine/Idle.lean ====
section
/-! DEFINITION. What happens while no command waits: a millisecond passes, and the Raster Unit goes on with the overlay of the
line under way. -/

namespace Sys2Proof.Machine

/-- An empty command queue (DESIGN CHOICE, log entries 2 and 31): the three timers may grow, and the holder of the raster path
has its next note piece or margin item drawn, if one is due (R104, R130, R134, R138). -/
def idle (s : State) : State := overlayOp (tick s)

end Sys2Proof.Machine
end

