-- ==== Sys2Proof/WellFormed.lean ====
section
/-! DEFINITION. When a command can be sent: each field fits the width that R150 gives it, a record's parts agree with its
encoded form, a payload fits a frame (Table 9-1), a lane is one of the eight (R133).  Whether a value is in range is its
owner's matter (R150) and no part of this. -/

namespace Sys2Proof

/-- A number of one byte. -/
def fits8 (n : Nat) : Bool := decide (n < 256)

/-- A number of two bytes. -/
def fits16 (n : Nat) : Bool := decide (n < 65536)

/-- A signed number of one byte. -/
def fitsS8 (i : Int) : Bool := decide (-128 ≤ i ∧ i ≤ 127)

/-- A signed number of two bytes. -/
def fitsS16 (i : Int) : Bool := decide (-32768 ≤ i ∧ i ≤ 32767)

/-- A list whose count is two bytes and whose entries fit. -/
def fitsList {α : Type} (p : α → Bool) (l : List α) : Bool := fits16 l.length && l.all p

def Pos.wf (p : Pos) : Bool := fits16 p.run && fits8 p.off

def StyleFields.wf (f : StyleFields) : Bool :=
  f.font.all fits8 && f.ink.all fits8 && f.letterSpacing.all fitsS8 && f.spaceNatural.all fits16 && f.spaceMin.all fits16
    && f.spaceMax.all fits16 && f.lineHeight.all fits8 && f.firstIndent.all fits16 && f.paragraphGap.all fits8
    && f.alignment.all fits8 && f.hyphenGlyph.all fits16

/-- A run record; an unknown kind's code is none of the seven of Table 1-1. -/
def RunRecord.wf : RunRecord → Bool
  | .word gs _ hyphens => fitsList fits16 gs && fitsList fits8 hyphens
  | .space => true
  | .hardBreak => true
  | .paraEnd => true
  | .stylePush id => fits8 id
  | .stylePop => true
  | .stylePatch f => f.wf
  | .unknown c => fits8 c && decide (7 ≤ c)

def FontHeader.wf (h : FontHeader) : Bool :=
  decide (h.nameTag.length = 8) && fits16 h.glyphCount && fits8 h.ascent && fits8 h.descent && fits16 h.defaultAdvance
    && fits8 h.firstBank && fits8 h.lastBank

/-- A glyph record in the widths of Table 2-2, its map holding one value of four bits for each pixel. -/
def GlyphRec.wf (g : GlyphRec) : Bool :=
  decide (g.advance < 4096) && fitsS8 g.xBearing && fitsS8 g.topOffset && decide (g.width < 128) && decide (g.height < 128)
    && decide (g.coverage.length = g.width * g.height) && g.coverage.all (fun c => decide (c < 16))

def TileRect.wf (r : TileRect) : Bool := fits8 r.col0 && fits8 r.col1 && fits8 r.row0 && fits8 r.row1

/-- A note kind; an unknown one's code is none of the three of Table 5-1. -/
def NoteKindField.wf : NoteKindField → Bool
  | .fill a => fits8 a
  | .underline t => fits8 t
  | .box => true
  | .unknown c => fits8 c && decide (3 ≤ c)

def Change.wf (p : Nat → Bool) : Change → Bool
  | .keep => true
  | .clear => true
  | .set n => p n

def NoteFields.wf (n : NoteFields) : Bool :=
  n.id.all fits16 && n.flow.all fits8 && n.start.all Pos.wf && n.stop.all Pos.wf && n.kind.all NoteKindField.wf
    && n.ink.all fits8 && n.side.all fits8 && n.marginGlyph.all fits16 && n.marginStyle.all fits8
    && n.marginText.all (fitsList fits16)

def NoteChanges.wf (n : NoteChanges) : Bool :=
  n.flow.all fits8 && n.start.all Pos.wf && n.stop.all Pos.wf && n.kind.all NoteKindField.wf && n.ink.all fits8
    && n.side.all fits8 && n.marginGlyph.wf fits16 && n.marginStyle.wf fits8 && n.marginText.all (fitsList fits16)

def ComposeFields.wf (f : ComposeFields) : Bool :=
  fits8 f.tag && fits8 f.flow && f.start.wf && fits8 f.style && fits16 f.x && fits16 f.y && fits16 f.w && fits16 f.h
    && fits8 f.marginLeft && fits8 f.marginRight

/-- The fields of a request fit their widths. -/
def Request.fieldsFit : Request → Bool
  | .status => true
  | .reset => true
  | .set id v => fits8 id && fits16 v
  | .get id => fits8 id
  | .activate => true
  | .standby => true
  | .setTemperature d => fitsS16 d
  | .readNotices m => fits8 m
  | .clearNotices => true
  | .flowAppend slot l => fits8 slot && fitsList RunRecord.wf l
  | .flowClear slot => fits8 slot
  | .flowInfo slot => fits8 slot
  | .styleDefine id f => fits8 id && f.wf
  | .styleRead id => fits8 id
  | .fontBegin slot h => fits8 slot && h.wf
  | .glyphPut slot i l => fits8 slot && i.all fits16 && fitsList GlyphRec.wf l
  | .fontEnd slot => fits8 slot
  | .fontDrop slot => fits8 slot
  | .fontLock slot => fits8 slot
  | .fontCheck slot => fits8 slot
  | .fontList => true
  | .glyphGet slot i => fits8 slot && fits16 i
  | .protectRaise b => fits8 b
  | .storeWipe => true
  | .compose f => f.wf
  | .composeAbort t => fits8 t
  | .frameRelease slot gen => fits8 slot && fits16 gen
  | .frameInfo slot gen line => fits8 slot && fits16 gen && fits8 line
  | .locate slot gen x y => fits8 slot && fits16 gen && fits16 x && fits16 y
  | .noteAdd n => n.wf
  | .noteChange id c => fits16 id && c.wf
  | .noteRemove id => fits16 id
  | .noteList id => fits16 id
  | .commit m c r => fits8 m && fits8 c && r.all TileRect.wf
  | .refresh m c r => fits8 m && fits8 c && r.all TileRect.wf
  | .queueInfo => true

/-- A request whose fields fit and whose payload fits a frame (R150, Table 9-1). -/
def Request.wf (r : Request) : Bool := r.fieldsFit && decide ((Machine.putRequest r).length ≤ Config.maxPayload)

/-- The request that a command presents, with its tag; an event command presents none. -/
def Instr.asRequest : Instr → Option (Byte × Request)
  | .frameReceived _ => none
  | .handOver => none
  | .replySent => none
  | .status tag => some (tag, .status)
  | .reset tag => some (tag, .reset)
  | .set tag id v => some (tag, .set id v)
  | .get tag id => some (tag, .get id)
  | .activate tag => some (tag, .activate)
  | .standby tag => some (tag, .standby)
  | .setTemperature tag d => some (tag, .setTemperature d)
  | .readNotices tag m => some (tag, .readNotices m)
  | .clearNotices tag => some (tag, .clearNotices)
  | .flowAppend tag slot l => some (tag, .flowAppend slot l)
  | .flowClear tag slot => some (tag, .flowClear slot)
  | .flowInfo tag slot => some (tag, .flowInfo slot)
  | .styleDefine tag id f => some (tag, .styleDefine id f)
  | .styleRead tag id => some (tag, .styleRead id)
  | .fontBegin tag slot h => some (tag, .fontBegin slot h)
  | .glyphPut tag slot i l => some (tag, .glyphPut slot i l)
  | .fontEnd tag slot => some (tag, .fontEnd slot)
  | .fontEndComplete => none
  | .fontDrop tag slot => some (tag, .fontDrop slot)
  | .fontDropComplete => none
  | .fontLock tag slot => some (tag, .fontLock slot)
  | .fontLockComplete => none
  | .fontCheck tag slot => some (tag, .fontCheck slot)
  | .fontCheckComplete => none
  | .fontList tag => some (tag, .fontList)
  | .glyphGet tag slot i => some (tag, .glyphGet slot i)
  | .protectRaise tag b => some (tag, .protectRaise b)
  | .protectRaiseComplete => none
  | .storeWipe tag => some (tag, .storeWipe)
  | .storeWipeComplete => none
  | .writeEntryProgrammed => none
  | .compose tag f => some (tag, .compose f)
  | .composeAbort tag t => some (tag, .composeAbort t)
  | .frameRelease tag slot gen => some (tag, .frameRelease slot gen)
  | .frameInfo tag slot gen line => some (tag, .frameInfo slot gen line)
  | .locate tag slot gen x y => some (tag, .locate slot gen x y)
  | .noteAdd tag n => some (tag, .noteAdd n)
  | .noteChange tag id c => some (tag, .noteChange id c)
  | .noteRemove tag id => some (tag, .noteRemove id)
  | .noteList tag id => some (tag, .noteList id)
  | .commit tag m c r => some (tag, .commit m c r)
  | .refresh tag m c r => some (tag, .refresh m c r)
  | .queueInfo tag => some (tag, .queueInfo)
  | .rasterPathGrant => none
  | .replayEnd => none
  | .pagePaperFill => none
  | .lineSet => none
  | .glyphSpanDrawn => none
  | .overlayLineDone => none
  | .retintLineRedrawn => none
  | .latchTile => none
  | .panelFrameBoundary => none
  | .laneFrame _ => none
  | .dispatchScan => none
  | .updateCompletion _ => none
  | .deghostExpiry => none
  | .temperatureStale => none
  | .resetPin => none
  | .resetPinRelease => none
  | .startupScanEnd => none
  | .abandonedFrame _ => none
  | .driveHoldLevelChange _ => none

/-- The lane that a command names, if it names one. -/
def Instr.lane : Instr → Option Nat
  | .laneFrame lane => some lane
  | .updateCompletion lane => some lane
  | _ => none

/-- A command is well formed. -/
def Instr.wf (i : Instr) : Bool :=
  i.asRequest.all (fun p => p.2.wf) && i.lane.all (fun n => decide (n < Config.laneCount))

end Sys2Proof
end

