-- ==== Sys2Proof/Safety.lean ====
section
/-! DEFINITION. What claims speak of: when a request is handed over at once, the state with a reply filled, and the
conditions that every step keeps. -/

namespace Sys2Proof.Machine

/-- The part runs, nothing is queued, no RESET awaits its effect and a place is FREE: a request presented now is handed over
at once (R152). -/
def LinkOpen (s : State) : Prop :=
  s.pins.resetHeld = false ∧ s.link.requests = [] ∧ s.link.resetAwaits = false
    ∧ s.link.reserved + s.link.filled.length < 8

/-- The link is open and the part is in STANDBY or ACTIVE: a readable request reaches its owner (R152). -/
def Ready (s : State) : Prop := LinkOpen s ∧ s.settings.power ≠ .starting

/-- The part is ready and ACTIVE. -/
def ReadyActive (s : State) : Prop := LinkOpen s ∧ s.settings.power = .active

/-- The part is ready and no earlier font request is undecided, so the Font Store's next answer is filled at once (R27). -/
def FontReady (s : State) : Prop := Ready s ∧ s.store.held = []

/-- The state with one more FILLED place, holding a reply (R152, R153); nothing else differs. -/
def replied (tag kind : Byte) (status : Status) (fields : ReplyFields) (s : State) : State :=
  { s with link := { s.link with filled := s.link.filled ++ [⟨tag, kind, status, fields⟩] } }

/-- The state with one more RESERVED place, kept for a font request that is not decided yet (R27, R152). -/
def reservedFor (tag kind : Byte) (s : State) : State :=
  { s with
    link := { s.link with reserved := s.link.reserved + 1 }
    store := { s.store with held := s.store.held ++ [⟨tag, kind, none⟩] } }

/-! ### The outbound side (R153) -/

/-- The bytes that the FILLED replies still have to give, in order. -/
def outStream (l : LinkUnit) : List Byte := (l.filled.map replyFrame).flatten.drop l.sent

/-- The bits of bytes in the order of the line: byte after byte, each with its most significant bit first (R147). -/
def lineBits (bytes : List Byte) : List Bool := (bytes.map (fun b => (List.range 8).map b.getMsbD)).flatten

/-- `n` exchanges that no reset cuts: they give the replies' bytes in order and then fill, each bit by bit, and free the
places of the replies given whole, of which the last is remembered. -/
def Gave (n : Nat) (before after : LinkUnit) : Prop :=
  after.given = (outStream before ++ List.replicate n 0x00#8).take n
    ∧ after.givenBits = lineBits after.given
    ∧ outStream after = (outStream before).drop n
    ∧ after.filled <:+ before.filled
    ∧ (after.filled = [] → after.sent = 0)
    ∧ (∀ r rest, after.filled = r :: rest → after.sent < (replyFrame r).length)
    ∧ after.lastSent
      = if after.filled.length = before.filled.length then before.lastSent
        else (before.filled[before.filled.length - after.filled.length - 1]?).map replyFrame

/-- No reply's last byte would make a reset take effect (R156). -/
def NoResetReply (l : LinkUnit) : Prop := ∀ r ∈ l.filled, ¬(r.kind = 0x02#8 ∧ r.status = .ok)

/-! ### Ranges of line indices (R93) -/

/-- Lines gathered into a range: from the least to the greatest of them and of the range there was; no lines leave it
(R93). -/
def Gathered (old : Option (Nat × Nat)) (lines : List Nat) (new : Option (Nat × Nat)) : Prop :=
  (lines = [] → new = old)
    ∧ (lines ≠ [] →
      ∃ lo hi, new = some (lo, hi)
        ∧ (lo ∈ lines ∨ ∃ b, old = some (lo, b)) ∧ (hi ∈ lines ∨ ∃ a, old = some (a, hi))
        ∧ (∀ i ∈ lines, lo ≤ i ∧ i ≤ hi) ∧ ∀ a b, old = some (a, b) → lo ≤ a ∧ b ≤ hi)

/-! ### Conditions that every step keeps -/

/-- The bounded tables and queues hold no more than the spec gives them places (R1, R29, R44, R81, R122, R152, R154, R157),
and a place is RESERVED for each held font reply and for nothing else. -/
def Bounded (s : State) : Prop :=
  s.link.requests.length ≤ 8 ∧ s.link.reserved = s.store.held.length ∧ s.link.reserved + s.link.filled.length ≤ 8
    ∧ s.notices.buffer.length ≤ 64 ∧ s.notices.nextSeq < 65536
    ∧ s.sched.queue.length ≤ 24 ∧ (1 ≤ s.sched.nextId ∧ s.sched.nextId ≤ 65535)
    ∧ s.comp.jobs.length ≤ 4 ∧ s.store.writeQueue.length ≤ 2 ∧ s.notes.length ≤ 128
    ∧ (s.flows.map List.length).sum ≤ 16384

/-- The three planes are in canonical form: pixel keys strictly rising, no entry at level 15. -/
def PlanesWf (s : State) : Prop := PlaneWf s.planes.w ∧ PlaneWf s.planes.t ∧ PlaneWf s.planes.g

/-- Every level of a plane lies in 0..15, and so does the paper level of every job at work (R101, R106). -/
def LevelsWf (s : State) : Prop :=
  (∀ p ∈ [s.planes.w, s.planes.t, s.planes.g], ∀ e ∈ p, e.2 ≤ 15)
    ∧ (∀ j, s.comp.started = some j → j.paper ≤ 15)
    ∧ ∀ e ∈ s.comp.retints, ∀ r, e.run = some r → r.paper ≤ 15

/-- The ids of the note table are pairwise distinct (R81). -/
def NotesWf (s : State) : Prop := (s.notes.map (·.id)).Nodup

/-- The unfinished exchange has fewer than eight bits; a reply is sent only while a place is FILLED, and it has bytes left
(R147, R153). -/
def PortWf (s : State) : Prop :=
  s.link.port.bits.length < 8
    ∧ (s.link.filled = [] → s.link.sent = 0 ∧ s.link.port.out ≠ some .reply)
    ∧ ∀ r rest, s.link.filled = r :: rest → s.link.sent < (replyFrame r).length

/-- The tile table holds one record for each tile of the geometry last active, at most 1200, and none before the first
activation; in ACTIVE that geometry is the applied one (R114, R169). -/
def TilesWf (s : State) : Prop :=
  (s.settings.lastActive = none → s.sched.tiles = [])
    ∧ (∀ w h, s.settings.lastActive = some (w, h) → s.sched.tiles.length = w / 64 * (h / 64) ∧ w ≤ 2560 ∧ h ≤ 1920)
    ∧ (s.settings.power = .active → s.settings.lastActive = some (panelWidth s, panelHeight s))
    ∧ s.sched.tiles.length ≤ 1200

/-- A place of a job's passes before the OVERLAY pass. -/
def beforeOverlay : Phase → Bool
  | .overlay _ => false
  | _ => true

/-- Frame records, the live order, the retint queue and the started job fit together: at most eight retint jobs, one for a
record (R45); line tables of at most 256 lines (R52); the live order lists the LIVE slots once each (R50, R53); the OPEN slot is
the started job's (R49); and outside ACTIVE no job is started and no commit waits (R170). -/
def RecordsWf (s : State) : Prop :=
  s.comp.frames.length = 8
    ∧ (∀ i, (frameAt s.comp i).lines.length ≤ 256)
    ∧ s.comp.liveOrder.length ≤ 8 ∧ s.comp.liveOrder.Nodup
    ∧ (∀ i, i ∈ s.comp.liveOrder ↔ i < 8 ∧ (frameAt s.comp i).state = .live)
    ∧ s.comp.retints.length ≤ 8 ∧ (s.comp.retints.map (·.slot)).Nodup
    ∧ (∀ e ∈ s.comp.retints, e.slot < 8
      ∧ (((frameAt s.comp e.slot).state = .live ∧ (frameAt s.comp e.slot).gen = e.gen
          ∧ ∀ r, e.run = some r → r.released = false)
        ∨ ((frameAt s.comp e.slot).state = .free ∧ ∃ r, e.run = some r ∧ r.released = true)))
    ∧ (∀ j, s.comp.started = some j →
      j.slot < 8 ∧ (frameAt s.comp j.slot).state = .opened ∧ (frameAt s.comp j.slot).gen = j.gen
        ∧ (frameAt s.comp j.slot).flow = j.spec.flow
        ∧ (beforeOverlay j.phase = true → (frameAt s.comp j.slot).lines.length < 256))
    ∧ (∀ i, (frameAt s.comp i).state = .opened → ∃ j, s.comp.started = some j ∧ j.slot = i)
    ∧ (s.settings.power ≠ .active → s.comp.started = none ∧ s.comp.path = .free ∧ s.comp.commit = .empty)

/-- What a slot of the font table and the banks say of each other while the part is out of STARTING (R23, R24, R28, R34). -/
def SlotWf (st : FontStore) (i : Nat) : Prop :=
  match (fontSlot st i).state with
  | .empty =>
    droppingSlot st.op = some i ∨ st.op = some .storeWipe
      ∨ (nvFont st i = none ∧ ∀ e ∈ st.writeQueue, entrySlot e ≠ i)
  | .loading =>
    ∃ h, (fontSlot st i).header = some h ∧ st.nv.boundary ≤ h.firstBank
      ∧ (∀ v, st.op = some (.protectRaise v) → v ≤ h.firstBank)
      ∧ (∀ f, nvFont st i = some f → f.header = h ∧ f.endMark = false ∧ f.dropped = false)
      ∧ (nvFont st i = none → .header i h ∈ st.writeQueue)
  | _ =>
    (∃ f, nvFont st i = some f ∧ (fontSlot st i).header = some f.header ∧ f.endMark = true ∧ f.dropped = false)
      ∧ ∀ e ∈ st.writeQueue, entrySlot e ≠ i

/-- What the store operation in progress says of its slot (R27, R32, R34, R35, R37, R38, R39). -/
def OpWf (st : FontStore) : Prop :=
  match st.op with
  | none => True
  | some (.fontEnd i waits) =>
    (fontSlot st i).state = .loading ∧ (fontSlot st i).busy = true ∧ ∀ e ∈ st.writeQueue.drop waits, entrySlot e ≠ i
  | some (.fontDrop i _ _) =>
    (fontSlot st i).state = .empty ∧ (fontSlot st i).busy = true
      ∧ ∀ f, nvFont st i = some f → st.nv.boundary ≤ f.header.firstBank
  | some (.fontLock i) =>
    ((fontSlot st i).state = .ready ∨ (fontSlot st i).state = .damaged) ∧ (fontSlot st i).busy = true
      ∧ st.nv.boundary ≤ firstBankOf (fontSlot st i)
  | some (.fontCheck i) =>
    ((fontSlot st i).state = .ready ∨ (fontSlot st i).state = .damaged) ∧ (fontSlot st i).busy = true
  | some (.protectRaise v) => st.nv.boundary ≤ v
  | some .storeWipe =>
    st.nv.wipeMark = true ∧ st.writeQueue = [] ∧ ∀ v ∈ st.slots, v.state = .empty ∧ v.busy = true

/-- The font table, the write queue, the store operation and the banks fit together, so that nothing but a wipe can reach a
bank below the protection boundary (R38). -/
def StoreWf (s : State) : Prop :=
  s.store.slots.length = 16 ∧ s.store.nv.fonts.length = 16
    ∧ (s.settings.power = .starting → s.store.writeQueue = [] ∧ s.store.op = none)
    ∧ (∀ i f, nvFont s.store i = some f → f.endMark = false ∨ f.dropped = true → s.store.nv.boundary ≤ f.header.firstBank)
    ∧ (s.settings.power ≠ .starting → ∀ i, i < 16 → SlotWf s.store i)
    ∧ (∀ e ∈ s.store.writeQueue,
      (fontSlot s.store (entrySlot e)).state = .loading ∨ droppingSlot s.store.op = some (entrySlot e))
    ∧ (∀ i h, .header i h ∈ s.store.writeQueue →
      s.store.nv.boundary ≤ h.firstBank
        ∧ ((fontSlot s.store i).state = .loading → (fontSlot s.store i).header = some h))
    ∧ OpWf s.store

/-- The holder of the raster path is the one claimant that runs (R47). -/
def PathDiscipline (s : State) : Prop :=
  (s.comp.path = .composeJob ↔ ∃ j, s.comp.started = some j ∧ j.running = true)
    ∧ (s.comp.path = .retintJob ↔ s.comp.retints.countP (fun e => e.run.isSome) = 1)
    ∧ (s.comp.path = .latch ↔ commitState s.comp.commit = .latching)
    ∧ s.comp.retints.countP (fun e => e.run.isSome) ≤ 1

/-- Every lane is FREE outside ACTIVE, and a tile is in flight with a lane's number exactly when that lane drives a rectangle
that holds it (R127, R133, R170). -/
def FlightDiscipline (s : State) : Prop :=
  s.lanes.lanes.length = 8
    ∧ (s.settings.power ≠ .active → ∀ x ∈ s.lanes.lanes, x = .free)
    ∧ ∀ i t, s.sched.tiles[i]? = some t →
      (inFlight t = true ↔ t.lane.isSome = true)
        ∧ ∀ l, t.lane = some l ↔
          ∃ d, s.lanes.lanes[l]? = some (.driving d) ∧ inTileRect d.rect (i % tileCols s) (i / tileCols s) = true

/-- Every setting's applied value, and its pending value if present, is one that a write can store, and a LIVE setting has
no pending value (R163, R164). -/
def SettingsInRange (s : State) : Prop :=
  s.settings.values.length = 13
    ∧ ∀ id, id ≤ 12 →
      clampSetting id (setting s.settings id).applied = (setting s.settings id).applied
        ∧ (∀ v, (setting s.settings id).pending = some v → clampSetting id v = v)
        ∧ (settingClass id = .live → (setting s.settings id).pending = none)

/-- A pixel lies in a tile of the applied geometry, given by the tile's index (R102). -/
def pixelInTile (s : State) (i x y : Nat) : Prop :=
  (i % tileCols s) * 64 ≤ x ∧ x < (i % tileCols s) * 64 + 64 ∧ (i / tileCols s) * 64 ≤ y ∧ y < (i / tileCols s) * 64 + 64

end Sys2Proof.Machine
end

