-- ==== Sys2Proof/Certificates/Slice0/Obligations.lean ====
section
/-! DEFINITION. The statements for the provers.  Each docstring names the rule it formalises, or the model's own choice and
its log entry. -/

section

open Sys2Proof Sys2Proof.Machine

/-! ### The step and the link -/

/-- The front command of the queue is what a step runs (the block's queue is the model's: log entry 4). -/
def Obligations.StepRunsFrontCommand : Prop :=
  ∀ (c : Instr) (rest : List Instr) (s : State),
    step { s with pending := c :: rest } = exec c { s with pending := rest }

/-- On an empty queue a step is one millisecond; that it is, is the model's choice of log entries 2 and 31. Outside
STARTING the stale timer grows by 1 while it is not stopped and either the stale state is set or it is below 600 s, and the
time since the last boundary grows by 1 below the frame period; in ACTIVE the deghost timer grows by 1 below the interval;
otherwise each holds (R130, R134, R138). Where the holder of the raster path has a line's overlay under way, the next note
piece or margin item of that line is drawn. Nothing else changes. -/
def Obligations.EmptyQueuePassesTime : Prop :=
  ∀ (s u : State), s.pending = [] →
    u
      = { s with
          lanes :=
            { s.lanes with
              staleMs :=
                if s.settings.power ≠ .starting ∧ s.lanes.staleStopped = false
                    ∧ (s.lanes.stale = true ∨ s.lanes.staleMs < 600000) then s.lanes.staleMs + 1
                else s.lanes.staleMs
              boundaryMs :=
                if s.settings.power ≠ .starting ∧ s.lanes.boundaryMs < applied s 2 then s.lanes.boundaryMs + 1
                else s.lanes.boundaryMs }
          sched :=
            { s.sched with
              deghostMs :=
                if s.settings.power = .active ∧ s.sched.deghostMs < applied s 9 * 60000 then s.sched.deghostMs + 1
                else s.sched.deghostMs } } →
      ((∀ j i, s.comp.started = some j → j.running = true → j.phase ≠ .overlay i) →
        ((∃ j, s.comp.started = some j ∧ j.running = true) ∨ s.comp.path ≠ .retintJob
          ∨ ∀ e ∈ s.comp.retints, ∀ r w, e.run = some r → r.stage ≠ .overlay w) →
        step s = .next u)
      ∧ (∀ (j : Job) (i : Nat) (f : FrameRec) (line : LineRec) (notes : List Note), s.comp.started = some j →
          j.running = true → j.phase = .overlay i → s.comp.frames[j.slot]? = some f → f.lines[i]? = some line →
          f.snapshot = some notes →
        ∃ x : LineWork × State,
          x = drawNextOp f line (j.work.getD (beginOverlayLine f line j.stack notes u)) u
          ∧ x.2 = { u with planes := x.2.planes, sched := x.2.sched }
          ∧ step s = .next { x.2 with comp := { s.comp with started := some { j with work := some x.1 } } })
      ∧ ∀ (before after : List RetintEntry) (slot gen : Nat) (run : RetintRun) (line : LineRec) (w : LineWork),
        (∀ j, s.comp.started = some j → j.running = false) → s.comp.path = .retintJob →
        s.comp.retints = before ++ ⟨slot, gen, some run⟩ :: after → (∀ e ∈ before, e.run = none) →
        (∀ e ∈ after, e.run = none) → run.frame.lines[run.current]? = some line → run.stage = .overlay w →
          ∃ x : LineWork × State,
            x = drawNextOp run.frame line w u
            ∧ x.2 = { u with planes := x.2.planes, sched := x.2.sched }
            ∧ step s
              = .next
                { x.2 with
                  comp :=
                    { s.comp with
                      retints := before ++ ⟨slot, gen, some { run with stage := .overlay x.1 }⟩ :: after } }

/-- A well-formed request is read back whole from its payload (R150): decode of encode is the identity. The form of
a wide field, of a list and of an absent field is the model's choice of log entries 12, 13 and 14. -/
def Obligations.RequestPayloadRoundTrip : Prop :=
  ∀ r : Request, r.wf = true → readRequest (requestKind r) (putRequest r) = some r

/-- The bytes of a frame, received from HUNT, bring its request to the tail of the request queue when there is room, while
the same exchanges give the FILLED replies' bytes and then fill. A byte is eight clocks in each direction, its most
significant bit first; select released before the eighth clock discards the inbound bits, after the first bits of the outbound
byte, and keeps that byte to be given again (R147, R148, R149, R153, R154). The record of the given bits and bytes is the
model's view of its port (log entry 16). -/
def Obligations.FrameArrivesWhole : Prop :=
  (∀ (s : State) (tag kind : Byte) (payload : List Byte),
    s.pins.resetHeld = false → s.link.hunt = .hunt → payload.length ≤ 1024 → s.link.requests.length < 8 →
    s.link.port = Port.idle → PortWf s → NoResetReply s.link →
      ∃ l : LinkUnit,
        exec (.frameReceived ((frameBytes tag kind payload).map .byte)) s = .next { s with link := l }
        ∧ l
          = { s.link with
              requests := s.link.requests ++ [⟨tag, kind, payload⟩]
              filled := l.filled, sent := l.sent, givenBits := l.givenBits, given := l.given, lastSent := l.lastSent }
        ∧ Gave (payload.length + 7) s.link l)
    ∧ (∀ (s : State) (b : Byte),
      exec (.frameReceived [.byte b]) s
        = exec (.frameReceived ((List.range 8).map (fun i => .clock (b.getMsbD i)))) s)
    ∧ (∀ (s : State) (bits : List Bool) (x : Byte), s.link.port = Port.idle → 1 ≤ bits.length → bits.length < 8 →
      (s.link.filled = [] → x = 0x00#8) →
      (∀ r rest, s.link.filled = r :: rest →
        (frameBytes r.tag r.kind (replyPayload r))[s.link.sent]? = some x) →
      exec (.frameReceived (bits.map .clock ++ [.release])) s
        = .next
          { s with
            link :=
              { s.link with
                port := ⟨[], some (if s.link.filled = [] then .fill else .reply)⟩
                givenBits := (List.range bits.length).map x.getMsbD
                given := [] } })
    ∧ ∀ (s : State) (b : Byte), s.link.hunt = .hunt → b ≠ 0xC3#8 → s.link.port.bits = [] →
      (s.link.port.out = some .fill ∨ (s.link.port.out = none ∧ s.link.filled = []) →
        exec (.frameReceived [.byte b]) s
          = .next
            { s with
              link :=
                { s.link with port := Port.idle, givenBits := List.replicate 8 false, given := [0x00#8] } })
      ∧ ∀ (r : Reply) (rest : List Reply) (x : Byte), s.link.port.out ≠ some .fill → s.link.filled = r :: rest →
        (frameBytes r.tag r.kind (replyPayload r))[s.link.sent]? = some x →
        s.link.sent + 1 < (frameBytes r.tag r.kind (replyPayload r)).length →
          exec (.frameReceived [.byte b]) s
            = .next
              { s with
                link :=
                  { s.link with
                    port := Port.idle, sent := s.link.sent + 1, givenBits := (List.range 8).map x.getMsbD
                    given := [x] } }

/-- A frame whose two CRC bytes are not its check value leaves no trace; a whole frame at a full request queue is
answered OVERRUN when a place is FREE at its last byte, and dropped when none is; at the second length byte of a length
above 1024 the frame is abandoned and both length bytes are hunted again (R149, R154). Meanwhile the exchanges give the
FILLED replies' bytes and then fill (R153); that the place a reply's last byte frees is FREE only after the inbound byte of
the same exchange is the model's choice of log entry 21, and the record of given bytes that of log entry 16. -/
def Obligations.FrameDroppedOrOverrun : Prop :=
  (∀ (s : State) (tag kind high low : Byte) (payload : List Byte),
    s.pins.resetHeld = false → s.link.hunt = .hunt → payload.length ≤ 1024 → s.link.port = Port.idle → PortWf s →
    NoResetReply s.link →
      ∃ a l : LinkUnit,
        Gave (payload.length + 6) s.link a ∧ Gave (payload.length + 7) s.link l
        ∧ l
          = { s.link with
              filled := l.filled, sent := l.sent, givenBits := l.givenBits, given := l.given, lastSent := l.lastSent }
        ∧ (256 * high.toNat + low.toNat ≠ (crc16 (frameCore tag kind payload)).toNat →
          exec (.frameReceived (((0xC3#8 :: frameCore tag kind payload) ++ [high, low]).map .byte)) s
            = .next { s with link := l })
        ∧ (s.link.requests.length = 8 → s.link.reserved + a.filled.length < 8 →
          exec (.frameReceived ((frameBytes tag kind payload).map .byte)) s
            = .next (replied tag kind .overrun .none { s with link := l }))
        ∧ (s.link.requests.length = 8 → 8 ≤ s.link.reserved + a.filled.length →
          exec (.frameReceived ((frameBytes tag kind payload).map .byte)) s = .next { s with link := l }))
    ∧ ∀ (s : State) (first second : Byte),
    s.pins.resetHeld = false → s.link.hunt = .length (some first) → first.toNat + 256 * second.toNat > 1024 →
    s.link.port = Port.idle → PortWf s → NoResetReply s.link →
      ∃ l : LinkUnit,
        exec (.abandonedFrame second) s = .next { s with link := l }
        ∧ Gave 1 s.link l
        ∧ l
          = { s.link with
              hunt :=
                if first = 0xC3#8 then .length (some second)
                else if second = 0xC3#8 then .length none
                else .hunt
              filled := l.filled, sent := l.sent, givenBits := l.givenBits, given := l.given, lastSent := l.lastSent }

/-- HAND_OVER takes the oldest request out of the queue and either answers it by the first failing check or gives it
to its owner; with no request, no FREE place, or a RESET awaiting its effect nothing happens (R152, R156). That a
command whose condition does not hold leaves the state as it is, is the model's choice of log entry 1. -/
def Obligations.HandOverChecksThenOwner : Prop :=
  ∀ (s : State),
    (∀ (q : RawRequest) (rest : List RawRequest),
      s.link.requests = q :: rest → s.pins.resetHeld = false → s.link.resetAwaits = false →
        s.link.reserved + s.link.filled.length < 8 →
        (knownKinds.contains q.kind.toNat = false →
          exec .handOver s
            = .next (replied q.tag q.kind .unknownKind .none { s with link := { s.link with requests := rest } }))
        ∧ (knownKinds.contains q.kind.toNat = true → s.settings.power = .starting → q.kind ≠ 0x01#8 →
          exec .handOver s
            = .next (replied q.tag q.kind .starting .none { s with link := { s.link with requests := rest } }))
        ∧ (knownKinds.contains q.kind.toNat = true → (s.settings.power ≠ .starting ∨ q.kind = 0x01#8) →
          (readRequest q.kind.toNat q.payload = none →
            exec .handOver s
              = .next (replied q.tag q.kind .malformed .none { s with link := { s.link with requests := rest } }))
          ∧ ∀ r, readRequest q.kind.toNat q.payload = some r →
            exec .handOver s = .next (ownerTakes q.tag q.kind r { s with link := { s.link with requests := rest } })))
    ∧ ((s.link.requests = [] ∨ s.link.resetAwaits = true ∨ 8 ≤ s.link.reserved + s.link.filled.length) →
      exec .handOver s = .next s)

/-- A request that arrives while others wait, while no place is FREE, or while a RESET awaits its effect joins the
tail of the request queue in its encoded form and does nothing else; at a full queue it is answered OVERRUN or
dropped; during STARTING every request but STATUS that is handed over is answered STARTING and has no other effect;
while the reset pin holds the part a request is discarded (R152, R154, R156, R171). That a request command is the
arrival of its whole frame and its hand-over is the model's choice of log entry 4. -/
def Obligations.RequestsWaitTheirTurn : Prop :=
  ∀ (i : Instr) (tag : Byte) (r : Request) (s : State), i.asRequest = some (tag, r) →
    (s.pins.resetHeld = true → exec i s = .next s)
    ∧ (s.pins.resetHeld = false →
        (s.link.requests ≠ [] ∨ s.link.resetAwaits = true ∨ 8 ≤ s.link.reserved + s.link.filled.length) →
      (s.link.requests.length < 8 →
        exec i s
          = .next
            { s with link := { s.link with requests := s.link.requests ++ [⟨tag, kindByte r, putRequest r⟩] } })
      ∧ (8 ≤ s.link.requests.length → s.link.reserved + s.link.filled.length < 8 →
        exec i s = .next (replied tag (kindByte r) .overrun .none s))
      ∧ (8 ≤ s.link.requests.length → 8 ≤ s.link.reserved + s.link.filled.length → exec i s = .next s))
    ∧ (r ≠ .status → LinkOpen s → s.settings.power = .starting →
      exec i s = .next (replied tag (kindByte r) .starting .none s))

/-- REPLY_SENT gives what is left of the reply filled earliest, after a fill byte that was cut, bit by bit, and frees its
place; the same exchanges take inbound bytes, which leave a hunt in HUNT as it is and may otherwise end a frame, whose OVERRUN
may fill a place behind. With no FILLED place it does nothing; ATTN is asserted exactly while a reply waits or the notice
count is at or above the attention level (R147, R149, R153, R162). That the rest of a reply is given at one command, that the
host's line is low meanwhile, and that the bits, bytes and the last whole frame are kept as the model's view of its port, is
the model's choice of log entry 16; that a command whose condition does not hold leaves the state as it is, that of log
entry 1. -/
def Obligations.ReplySentFreesItsPlace : Prop :=
  ∀ (s : State),
    (∀ (r : Reply) (rest : List Reply) (frame owed : List Byte),
      s.link.filled = r :: rest → PortWf s → frame = frameBytes r.tag r.kind (replyPayload r) →
      owed = (if s.link.port.out = some .fill then [0x00#8] else []) ++ frame.drop s.link.sent →
        exec .replySent s
          = exec
            (.frameReceived (List.replicate (8 * owed.length - s.link.port.bits.length) (.clock false))) s
        ∧ (¬(r.kind = 0x02#8 ∧ r.status = .ok) →
          ∃ (h : Hunt) (requests : List RawRequest) (overruns : List Reply),
            exec .replySent s
              = .next
                { s with
                  link :=
                    { s.link with
                      hunt := h
                      requests := requests
                      filled := rest ++ overruns
                      port := Port.idle
                      sent := 0
                      givenBits := (lineBits owed).drop s.link.port.bits.length
                      given := owed
                      lastSent := some frame } }
            ∧ (s.link.hunt = .hunt ∨ s.pins.resetHeld = true →
              h = s.link.hunt ∧ requests = s.link.requests ∧ overruns = [])
            ∧ s.link.requests <+: requests ∧ ∀ q ∈ overruns, q.status = .overrun))
    ∧ (s.link.filled = [] → exec .replySent s = .next s)
    ∧ (State.attn s = true ↔ s.link.filled ≠ [] ∨ applied s 10 ≤ s.notices.buffer.length)

/-- A RESET is answered OK and stops further hand-overs; when the last byte of its reply has been given, every block takes its
values after reset but for the nonvolatile memory, in which a header entry whose programming is cut leaves a font without an
end mark. The reset pin does the same at once, cutting a reply under way, and holds the part, whose port then gives fill; its
release leaves STARTING. DRIVE_HOLD_LEVEL_CHANGE changes the pin's level alone (R29, R129, R147, R153, R156, R171). Of the
values after reset, these are the model's and not the spec's: the planes at 15, which R103 leaves undefined, and the content of
FREE frame records and EMPTY font slots (DESIGN CHOICE, log entry 6); every font slot EMPTY before the scan (DEDUCED, log entry
26); no dispatch scan due, which is the model's own record (log entry 7); and the command queue, which stays (log entry 4).
What a cut programming leaves is deduced too (log entry 22). The bits and bytes last given to the host are the model's view of
its port (log entry 16), and that a release keeps the bits of an exchange under way is the model's choice of log entry 32. -/
def Obligations.ResetsTakeEffect : Prop :=
  ∀ (s : State) (tag : Byte) (nv : NvStore),
    (∀ slot h rest, s.store.writeQueue = .header slot h :: rest →
      nv = { s.store.nv with fonts := s.store.nv.fonts.set slot (some ⟨h, [], false, false, 0, false⟩) }) →
    ((∀ slot h rest, s.store.writeQueue ≠ .header slot h :: rest) → nv = s.store.nv) →
    (Ready s →
      exec (.reset tag) s
        = .next (replied tag 0x02#8 .ok .none { s with link := { s.link with resetAwaits := true } }))
    ∧ (∀ (r : Reply) (rest : List Reply) (frame : List Byte), s.link.filled = r :: rest → r.kind = 0x02#8 →
        r.status = .ok → PortWf s → frame = frameBytes r.tag r.kind (replyPayload r) →
        ∀ owed, owed = (if s.link.port.out = some .fill then [0x00#8] else []) ++ frame.drop s.link.sent →
      exec .replySent s
        = .next
          { State.afterReset .request nv s.pins s.pending with
            link :=
              { LinkUnit.reset with
                givenBits := (lineBits owed).drop s.link.port.bits.length
                given := owed
                lastSent := some frame } })
    ∧ exec .resetPin s
      = .next
        { State.afterReset .pin nv ⟨true, s.pins.driveHold⟩ s.pending with
          link :=
            { LinkUnit.reset with
              givenBits := s.link.givenBits, given := s.link.given, lastSent := s.link.lastSent } }
    ∧ (∀ b, s.pins.resetHeld = true → s.link.filled = [] → s.link.port = Port.idle →
      exec (.frameReceived [.byte b]) s
        = .next { s with link := { s.link with givenBits := List.replicate 8 false, given := [0x00#8] } })
    ∧ exec .resetPinRelease s = .next { s with pins := ⟨false, s.pins.driveHold⟩ }
    ∧ ∀ level, exec (.driveHoldLevelChange level) s = .next { s with pins := ⟨s.pins.resetHeld, level⟩ }

/-- STATUS is answered in every power state with the fields of R155 as they stand, and changes nothing else. -/
def Obligations.StatusReports : Prop :=
  ∀ (s : State) (tag : Byte), LinkOpen s →
    exec (.status tag) s
      = .next
        (replied tag 0x01#8 .ok
          (.status
            { power := s.settings.power
              queuedJobs := s.comp.jobs.length
              started :=
                s.comp.started.map (fun j => (j.spec.tag, if j.running then JobState.running else JobState.suspended))
              waitingRetints := (s.comp.retints.filter (fun e => e.run.isNone)).length
              runningRetints := (s.comp.retints.filter (fun e => e.run.isSome)).length
              path := s.comp.path
              commit := commitState s.comp.commit
              queueDepth := s.sched.queue.length
              busyLanes := (s.lanes.lanes.filter (fun x => x != .free)).length
              temperature := s.lanes.temperature
              band := bandOf s.lanes.temperature
              stale := s.lanes.stale
              noticeCount := s.notices.buffer.length
              driveHold := s.pins.driveHold
              frameCount := s.lanes.frameCount
              requestQueue := 0
              reservedPlaces := s.link.reserved
              filledPlaces := s.link.filled.length }) s)

/-! ### Settings, power and notices -/

/-- SET clamps the value to the range of Table 11-1 (a panel dimension is then rounded down to a multiple of 64) and
stores it by the setting's class; the reply carries the stored value and the setting's state. An id above 12, a code
above 1 in settings 3 and 7, and a STANDBY setting outside STANDBY are refused in this order. At a boundary of
the JOB-BOUNDARY or DISPATCH-BOUNDARY class its pending values apply, unless hold is 1; STANDBY values apply whatever hold
is (R130, R163, R164, R166, R167). -/
def Obligations.SetStoresByClass : Prop :=
  (∀ (s : State) (tag : Byte) (id value : Nat), Ready s →
    (12 < id → exec (.set tag id value) s = .next (replied tag 0x03#8 .badArgument .none s))
    ∧ (id = 3 ∨ id = 7 → 1 < value → exec (.set tag id value) s = .next (replied tag 0x03#8 .malformed .none s))
    ∧ (id ≤ 2 → s.settings.power = .active →
      exec (.set tag id value) s = .next (replied tag 0x03#8 .notInStandby .none s))
    ∧ (id ≤ 12 → (id = 3 ∨ id = 7 → value ≤ 1) → (id ≤ 2 → s.settings.power = .standby) →
      ∀ v, v = clampSetting id value →
        (7 ≤ id →
          exec (.set tag id value) s
            = .next
              (replied tag 0x03#8 .ok (.setting id v .applied)
                { s with
                  settings := { s.settings with values := s.settings.values.set id ⟨v, none⟩ }
                  sched := { s.sched with deghostMs := if id = 9 then 0 else s.sched.deghostMs } }))
        ∧ (id ≤ 6 → id < s.settings.values.length →
          exec (.set tag id value) s
            = .next
              (replied tag 0x03#8 .ok
                (.setting id v (if 3 ≤ id ∧ applied s 12 = 1 then .held else .awaiting))
                { s with
                  settings := { s.settings with values := s.settings.values.set id ⟨applied s id, some v⟩ } }))))
    ∧ (∀ v, clampSetting 0 v = if v < 640 then 640 else if v > 2560 then 2560 else v - v % 64)
    ∧ (∀ v, clampSetting 1 v = if v < 512 then 448 else if v > 1920 then 1920 else v - v % 64)
    ∧ (∀ v, clampSetting 2 v = if v < 10 then 10 else if v > 20 then 20 else v)
    ∧ (∀ v, clampSetting 4 v = if v < 1 then 1 else if v > 64 then 64 else v)
    ∧ (∀ v, clampSetting 5 v = if v < 8 then 8 else if v > 15 then 15 else v)
    ∧ (∀ v, clampSetting 6 v = if v < 1 then 1 else if v > 254 then 254 else v)
    ∧ (∀ v, clampSetting 9 v = if v > 240 then 240 else v)
    ∧ (∀ v, clampSetting 10 v = if v < 1 then 1 else if v > 64 then 64 else v)
    ∧ (∀ id ∈ [3, 7, 8, 11, 12], ∀ v, clampSetting id v = if v > 1 then 1 else v)
    ∧ (∀ (c : SettingClass) (t : Settings) (id : Nat), c = .jobBoundary ∨ c = .dispatchBoundary →
      setting (applyBoundary c t) id
        = if (setting t 12).applied ≠ 1 ∧ settingClass id = c then
            ⟨(setting t id).pending.getD (setting t id).applied, none⟩
          else setting t id)
    ∧ ∀ (t : Settings) (id : Nat),
      setting (applyClass .standby t) id
        = if id ≤ 2 then ⟨(setting t id).pending.getD (setting t id).applied, none⟩ else setting t id

/-- GET (R165): the two answers in STANDBY and ACTIVE, and STARTING's. -/
def Obligations.GetReports : Prop :=
  ∀ (s : State) (tag : Byte) (id : Nat), LinkOpen s →
    (s.settings.power ≠ .starting → 12 < id → exec (.get tag id) s = .next (replied tag 0x04#8 .badArgument .none s))
    ∧ (s.settings.power ≠ .starting → id ≤ 12 →
      exec (.get tag id) s
        = .next
          (replied tag 0x04#8 .ok
            (.settingInfo id
              (if id ≤ 2 then .standby else if id ≤ 5 then .jobBoundary else if id = 6 then .dispatchBoundary else .live)
              (setting s.settings id).applied (setting s.settings id).pending
              (if (setting s.settings id).pending = none then .applied
                else if 3 ≤ id ∧ id ≤ 6 ∧ applied s 12 = 1 then .held else .awaiting)) s))
    ∧ (s.settings.power = .starting → exec (.get tag id) s = .next (replied tag 0x04#8 .starting .none s))

/-- ACTIVATE in STANDBY applies the pending STANDBY values, fills the planes when the geometry is not the last active
one, and makes the part ACTIVE; in ACTIVE it answers OK and changes nothing (R169, R103).
That the fields of the answer in ACTIVE are the applied values with the filled flag clear is the model's deduction of log
entry 11. -/
def Obligations.ActivateAppliesAndFills : Prop :=
  ∀ (s : State) (tag : Byte), Ready s → s.settings.values.length = 13 →
    (s.settings.power = .active →
      exec (.activate tag) s
        = .next (replied tag 0x05#8 .ok (.activated (applied s 0) (applied s 1) (applied s 2) false) s))
    ∧ (s.settings.power = .standby →
      ∃ w h p filled t,
        exec (.activate tag) s = .next (replied tag 0x05#8 .ok (.activated w h p filled) t)
        ∧ w = (setting s.settings 0).pending.getD (applied s 0)
        ∧ h = (setting s.settings 1).pending.getD (applied s 1)
        ∧ p = (setting s.settings 2).pending.getD (applied s 2)
        ∧ (filled = true ↔ s.settings.lastActive ≠ some (w, h))
        ∧ t.settings.power = .active ∧ t.settings.lastActive = some (w, h)
        ∧ applied t 0 = w ∧ applied t 1 = h ∧ applied t 2 = p
        ∧ (∀ id, 3 ≤ id → setting t.settings id = setting s.settings id)
        ∧ (∀ id, id ≤ 2 → (setting t.settings id).pending = none)
        ∧ (filled = true →
          t.planes = ⟨[], [], []⟩ ∧ t.sched = { s.sched with tiles := List.replicate (w / 64 * (h / 64)) TileRec.fresh }
            ∧ ∀ slot, slot < 8 → (frameAt t.comp slot).state = .free)
        ∧ (filled = false → t.planes = s.planes ∧ t.sched = s.sched ∧ t.comp = s.comp)
        ∧ t.lanes = { s.lanes with boundaryMs := if p = applied s 2 then s.lanes.boundaryMs else 0 }
        ∧ t.pins = s.pins ∧ t.link = s.link ∧ t.flows = s.flows ∧ t.styles = s.styles ∧ t.store = s.store
        ∧ t.notes = s.notes ∧ t.notices = s.notices ∧ t.pending = s.pending)

/-- STANDBY: OK and no change in STANDBY; in ACTIVE BUSY with one flag for each of the five conditions while one
holds, else the part goes to STANDBY (R170). -/
def Obligations.StandbyUnlessBusy : Prop :=
  ∀ (s : State) (tag : Byte) (jobs retints commit queue lanes : Bool),
    (jobs = true ↔ s.comp.jobs ≠ [] ∨ s.comp.started ≠ none) → (retints = true ↔ s.comp.retints ≠ []) →
    (commit = true ↔ s.comp.commit ≠ .empty) → (queue = true ↔ s.sched.queue ≠ []) →
    (lanes = true ↔ ∃ d, Lane.driving d ∈ s.lanes.lanes) →
      (LinkOpen s → s.settings.power = .standby → exec (.standby tag) s = .next (replied tag 0x06#8 .ok .none s))
      ∧ (ReadyActive s → (jobs || retints || commit || queue || lanes) = true →
        exec (.standby tag) s
          = .next (replied tag 0x06#8 .busy (.standbyBusy jobs retints commit queue lanes) s))
      ∧ (ReadyActive s → (jobs || retints || commit || queue || lanes) = false →
        exec (.standby tag) s
          = .next
            (replied tag 0x06#8 .ok .none
              { s with
                settings := { s.settings with power := .standby }
                lanes := { s.lanes with scanDue := false } }))

/-- SET_TEMPERATURE stores the report clamped to 0..50, clears the stale state and restarts the stale timer; the bands
of the temperatures (R136, R137). -/
def Obligations.TemperatureIsReported : Prop :=
  (∀ (s : State) (tag : Byte) (degrees : Int), Ready s →
    ∃ t : Nat,
      (degrees < 0 → t = 0) ∧ (50 < degrees → t = 50) ∧ (0 ≤ degrees → degrees ≤ 50 → (t : Int) = degrees)
      ∧ exec (.setTemperature tag degrees) s
        = .next
          (replied tag 0x07#8 .ok (.temperature t (bandOf t))
            { s with lanes := { s.lanes with temperature := t, stale := false, staleMs := 0, staleStopped := false } }))
    ∧ ((∀ t, t ≤ 50 →
    (bandOf t = .b0 ↔ t ≤ 4) ∧ (bandOf t = .b1 ↔ 5 ≤ t ∧ t ≤ 14) ∧ (bandOf t = .b2 ↔ 15 ≤ t ∧ t ≤ 24)
      ∧ (bandOf t = .b3 ↔ 25 ≤ t ∧ t ≤ 34) ∧ (bandOf t = .b4 ↔ 35 ≤ t))
    ∧ State.reset.lanes.temperature = 25 ∧ bandOf State.reset.lanes.temperature = .b3)

/-- READ_NOTICES takes the oldest records, at most max clamped to 1..16, and reports the count and the lost mark left;
CLEAR_NOTICES empties the buffer and keeps the lost mark and the next sequence number (R160, R161). A posting takes the next
sequence number, which rises from 65535 to 0, and the frame count as stamp when setting 11 is 1; below 64 records it is
stored with the lost mark, which then clears, and at 64 it is dropped and the lost mark set (R158, R159). -/
def Obligations.NoticesAreReadAndCleared : Prop :=
  (∀ (s : State) (tag : Byte), Ready s →
    (∀ m k : Nat, (k = if m = 0 then 1 else if m > 16 then 16 else m) →
      exec (.readNotices tag m) s
        = .next
          (replied tag 0x08#8 .ok
            (.notices (s.notices.buffer.take k) (s.notices.buffer.length - k) s.notices.lost)
            { s with notices := { s.notices with buffer := s.notices.buffer.drop k } }))
    ∧ exec (.clearNotices tag) s
      = .next
        (replied tag 0x09#8 .ok (.cleared s.notices.buffer.length s.notices.lost)
          { s with notices := { s.notices with buffer := [] } }))
    ∧ ∀ (s : State) (b : NoticeBody) (seq : Nat), s.notices.nextSeq < 65536 →
      seq = (if s.notices.nextSeq = 65535 then 0 else s.notices.nextSeq + 1) →
        (s.notices.buffer.length < 64 →
          post b s
            = { s with
                notices :=
                  { buffer :=
                      s.notices.buffer
                        ++ [⟨s.notices.nextSeq, s.notices.lost,
                          if applied s 11 = 1 then some s.lanes.frameCount else none, b⟩]
                    nextSeq := seq
                    lost := false } })
        ∧ (64 ≤ s.notices.buffer.length →
          post b s = { s with notices := { s.notices with nextSeq := seq, lost := true } })

/-! ### Flows and styles -/

/-- FLOW_APPEND of well-formed records that find room appends them whole to the end of the slot; without room it is
refused FULL with the free places, a malformed record refuses the whole request, and nothing changes. FLOW_INFO
reports a slot's length and the free places and changes nothing. A slot above 3 is a bad argument (R7, R8, R11). -/
def Obligations.FlowAppendAndInfo : Prop :=
  (∀ (s : State) (tag : Byte) (slot : Nat) (records : List RunRecord), Ready s →
    (3 < slot → exec (.flowAppend tag slot records) s = .next (replied tag 0x10#8 .badArgument .none s))
    ∧ (slot ≤ 3 → (∃ r ∈ records, recordMalformed r = true) →
      exec (.flowAppend tag slot records) s = .next (replied tag 0x10#8 .malformed .none s))
    ∧ (slot ≤ 3 → (∀ r ∈ records, recordMalformed r = false) →
      (records.length + (s.flows.map List.length).sum ≤ 16384 →
        exec (.flowAppend tag slot records) s
          = .next
            (replied tag 0x10#8 .ok (.flowLength ((s.flows.getD slot []).length + records.length))
              { s with flows := s.flows.set slot (s.flows.getD slot [] ++ records) }))
      ∧ (16384 < records.length + (s.flows.map List.length).sum → (s.flows.map List.length).sum ≤ 16384 →
        exec (.flowAppend tag slot records) s
          = .next (replied tag 0x10#8 .full (.freePlaces (16384 - (s.flows.map List.length).sum)) s))))
    ∧ ∀ (s : State) (tag : Byte) (slot : Nat), Ready s →
      (slot ≤ 3 →
        exec (.flowInfo tag slot) s
          = .next
            (replied tag 0x12#8 .ok
              (.flowInfo (s.flows.getD slot []).length (16384 - (s.flows.map List.length).sum)) s))
      ∧ (3 < slot → exec (.flowInfo tag slot) s = .next (replied tag 0x12#8 .badArgument .none s))

/-- FLOW_CLEAR empties a slot that no job uses and releases every frame record of that flow; while a job uses it, it
is refused BUSY (R10). -/
def Obligations.FlowClearReleasesFrames : Prop :=
  ∀ (s : State) (tag : Byte) (slot : Nat), Ready s →
    (3 < slot → exec (.flowClear tag slot) s = .next (replied tag 0x11#8 .badArgument .none s))
    ∧ (slot ≤ 3 → ((∃ j ∈ s.comp.jobs, j.flow = slot) ∨ (∃ j, s.comp.started = some j ∧ j.spec.flow = slot)
        ∨ (∃ e ∈ s.comp.retints, ∃ r, e.run = some r ∧ r.frame.flow = slot)) →
      exec (.flowClear tag slot) s = .next (replied tag 0x11#8 .busy .none s))
    ∧ (slot ≤ 3 → (∀ j ∈ s.comp.jobs, j.flow ≠ slot) → (∀ j, s.comp.started = some j → j.spec.flow ≠ slot) →
        (∀ e ∈ s.comp.retints, ∀ r, e.run = some r → r.frame.flow ≠ slot) →
      ∃ n c,
        exec (.flowClear tag slot) s
          = .next
            (replied tag 0x11#8 .ok
              (.flowCleared n (16384 - ((s.flows.set slot []).map List.length).sum))
              { s with flows := s.flows.set slot [], comp := c })
        ∧ n = ((List.range 8).filter (fun i => (frameAt s.comp i).state != .free && (frameAt s.comp i).flow == slot)).length
        ∧ c.jobs = s.comp.jobs ∧ c.started = s.comp.started ∧ c.path = s.comp.path ∧ c.commit = s.comp.commit
        ∧ ∀ i, i < 8 →
          frameAt c i
            = if (frameAt s.comp i).state ≠ .free ∧ (frameAt s.comp i).flow = slot then
                FrameRec.vacant (frameAt s.comp i).gen
              else frameAt s.comp i)

/-- STYLE_DEFINE: each present field, clamped to its range of Table 1-2, replaces the record's field; the record is
then ordered, stored and returned. STYLE_READ reports the eleven fields of a record and changes nothing. An id above
31 is a bad argument, an alignment code above 3 malformed (R13, R14, R15). -/
def Obligations.StyleRecordsAreSetAndRead : Prop :=
  (∀ (s : State) (tag : Byte) (id : Nat) (f : StyleFields) (old : Style), Ready s →
    (31 < id → exec (.styleDefine tag id f) s = .next (replied tag 0x13#8 .badArgument .none s))
    ∧ (id ≤ 31 → ∀ c, f.alignment = some c → 3 < c →
      exec (.styleDefine tag id f) s = .next (replied tag 0x13#8 .malformed .none s))
    ∧ (id ≤ 31 → s.styles[id]? = some old → (∀ c, f.alignment = some c → c ≤ 3) →
    ∃ v, exec (.styleDefine tag id f) s = .next (replied tag 0x13#8 .ok (.style v) { s with styles := s.styles.set id v })
      ∧ (f.font = none → v.font = old.font) ∧ (∀ n, f.font = some n → v.font = min n 15)
      ∧ (f.ink = none → v.ink = old.ink) ∧ (∀ n, f.ink = some n → v.ink = min n 15)
      ∧ (f.letterSpacing = none → v.letterSpacing = old.letterSpacing)
      ∧ (∀ n, f.letterSpacing = some n → v.letterSpacing = max (-32) (min n 32))
      ∧ (f.spaceNatural = none → v.spaceNatural = old.spaceNatural)
      ∧ (∀ n, f.spaceNatural = some n → v.spaceNatural = min n 1023)
      ∧ (f.spaceMin = none → v.spaceMin = min old.spaceMin v.spaceNatural)
      ∧ (∀ n, f.spaceMin = some n → v.spaceMin = min (min n 1023) v.spaceNatural)
      ∧ (f.spaceMax = none → v.spaceMax = max old.spaceMax v.spaceNatural)
      ∧ (∀ n, f.spaceMax = some n → v.spaceMax = max (min n 1023) v.spaceNatural)
      ∧ (f.lineHeight = none → v.lineHeight = old.lineHeight)
      ∧ (∀ n, f.lineHeight = some n → v.lineHeight = max 4 (min n 255))
      ∧ (f.firstIndent = none → v.firstIndent = old.firstIndent)
      ∧ (∀ n, f.firstIndent = some n → v.firstIndent = min n 1023)
      ∧ (f.paragraphGap = none → v.paragraphGap = old.paragraphGap)
      ∧ (∀ n, f.paragraphGap = some n → v.paragraphGap = min n 255)
      ∧ (f.alignment = none → v.alignment = old.alignment)
      ∧ (∀ n, f.alignment = some n → alignCode v.alignment = n)
      ∧ (f.hyphenGlyph = none → v.hyphenGlyph = old.hyphenGlyph)
      ∧ (∀ n, f.hyphenGlyph = some n → v.hyphenGlyph = min n 4095)))
    ∧ ∀ (s : State) (tag : Byte) (id : Nat), Ready s →
      (31 < id → exec (.styleRead tag id) s = .next (replied tag 0x14#8 .badArgument .none s))
      ∧ ∀ v, id ≤ 31 → s.styles[id]? = some v → exec (.styleRead tag id) s = .next (replied tag 0x14#8 .ok (.style v) s)

/-! ### The Font Store -/

/-- FONT_BEGIN on an EMPTY slot with a free, unprotected bank range and room in the write queue makes the slot LOADING
with cursor and used bytes 0, queues a header entry and answers the capacity; fields out of range, a busy slot, a used
slot and a bank that is taken or protected are refused in this order (R23, R28). -/
def Obligations.FontBeginClaimsSlot : Prop :=
  ∀ (s : State) (tag : Byte) (slot : Nat) (h : FontHeader), FontReady s →
    (16 ≤ slot ∨ headerInRange h = false →
      exec (.fontBegin tag slot h) s = .next (replied tag 0x20#8 .badArgument .none s))
    ∧ (slot < 16 → headerInRange h = true →
      ((fontSlot s.store slot).busy = true →
        exec (.fontBegin tag slot h) s = .next (replied tag 0x20#8 .busy .none s))
      ∧ ((fontSlot s.store slot).busy = false → (fontSlot s.store slot).state ≠ .empty →
        exec (.fontBegin tag slot h) s = .next (replied tag 0x20#8 .exists_ .none s))
      ∧ ((fontSlot s.store slot).busy = false → (fontSlot s.store slot).state = .empty →
          ((∃ b, h.firstBank ≤ b ∧ b ≤ h.lastBank ∧ bankFree s.store b = false) ∨ h.firstBank < s.store.nv.boundary) →
        exec (.fontBegin tag slot h) s = .next (replied tag 0x20#8 .protected_ .none s)))
    ∧ (slot < 16 → headerInRange h = true →
    (fontSlot s.store slot).busy = false → (fontSlot s.store slot).state = .empty →
    (∀ b, h.firstBank ≤ b → b ≤ h.lastBank → bankFree s.store b = true) → s.store.nv.boundary ≤ h.firstBank →
    s.store.writeQueue.length < 2 → raiseAbove s.store h.firstBank = false →
      exec (.fontBegin tag slot h) s
        = .next
          (replied tag 0x20#8 .ok (.capacity (131072 * (h.lastBank - h.firstBank + 1) - 16384))
            { s with
              store :=
                { s.store with
                  slots := s.store.slots.set slot ⟨.loading, false, false, some h, 0, 0⟩
                  writeQueue := s.store.writeQueue ++ [.header slot h] } }))

/-- GLYPH_PUT gives consecutive indices from the start index, or from the cursor, to its records, queues them as one
entry, moves the cursor past them and counts their stored bytes (R30). -/
def Obligations.GlyphPutAssignsIndices : Prop :=
  ∀ (s : State) (tag : Byte) (slot : Nat) (start : Option Nat) (glyphs : List GlyphRec) (h : FontHeader), FontReady s →
    slot < 16 → glyphs ≠ [] → (∀ g ∈ glyphs, glyphMalformed g = false) →
    (fontSlot s.store slot).busy = false → (fontSlot s.store slot).state = .loading →
    (fontSlot s.store slot).header = some h →
    start.getD (fontSlot s.store slot).cursor + glyphs.length ≤ h.glyphCount →
    (glyphs.map storedSize).sum + (fontSlot s.store slot).used ≤ capacityOf h → s.store.writeQueue.length < 2 →
      ∃ first used entries,
        first = start.getD (fontSlot s.store slot).cursor
        ∧ used = (fontSlot s.store slot).used + (glyphs.map storedSize).sum
        ∧ entries.map Prod.snd = glyphs
        ∧ (∀ i, i < glyphs.length → (entries[i]?).map Prod.fst = some (first + i))
        ∧ exec (.glyphPut tag slot start glyphs) s
          = .next
            (replied tag 0x21#8 .ok (.glyphPut (first + glyphs.length) (capacityOf h - used))
              { s with
                store :=
                  { s.store with
                    slots :=
                      s.store.slots.set slot
                        { fontSlot s.store slot with cursor := first + glyphs.length, used := used }
                    writeQueue := s.store.writeQueue ++ [.glyphs slot entries] } })

/-- The six store operations, taken: a place is RESERVED and no reply is filled; the slot is busy and the operation in
progress. FONT_DROP empties its slot at once and removes its write entries that have not begun; STORE_WIPE empties
every slot and programs the wipe mark. A slot above 15 is a bad argument; PROTECT_RAISE and STORE_WIPE are refused in
ACTIVE (R27, R32, R34, R35, R37, R38, R39). That the oldest write entry has begun, and that the dropped mark then waits for
it, is the model's deduction of log entry 22. -/
def Obligations.StoreOperationsBegin : Prop :=
  ∀ (s : State) (tag : Byte) (slot : Nat) (v : FontSlot), FontReady s →
    (16 ≤ slot →
      exec (.fontEnd tag slot) s = .next (replied tag 0x22#8 .badArgument .none s)
      ∧ exec (.fontDrop tag slot) s = .next (replied tag 0x23#8 .badArgument .none s)
      ∧ exec (.fontLock tag slot) s = .next (replied tag 0x24#8 .badArgument .none s)
      ∧ exec (.fontCheck tag slot) s = .next (replied tag 0x25#8 .badArgument .none s))
    ∧ (s.settings.power = .active →
      (∀ b, exec (.protectRaise tag b) s = .next (replied tag 0x28#8 .notInStandby .none s))
      ∧ exec (.storeWipe tag) s = .next (replied tag 0x29#8 .notInStandby .none s))
    ∧ (slot < 16 → s.store.op = none → v = fontSlot s.store slot → v.busy = false →
      (v.state = .loading →
        exec (.fontEnd tag slot) s
          = .next
            (reservedFor tag 0x22#8
              { s with
                store :=
                  { s.store with
                    slots := s.store.slots.set slot { v with busy := true }
                    op := some (.fontEnd slot s.store.writeQueue.length) } }))
      ∧ (v.state ≠ .empty → s.store.nv.boundary ≤ firstBankOf v → fontInUse s slot = false →
        ∃ queue nv,
          queue = dropUnstarted slot s.store.writeQueue
          ∧ ((∀ e ∈ queue, entrySlot e ≠ slot) → nv = markDropped s.store.nv slot)
          ∧ ((∃ e ∈ queue, entrySlot e = slot) → nv = s.store.nv)
          ∧ exec (.fontDrop tag slot) s
            = .next
              (reservedFor tag 0x23#8
                { s with
                  store :=
                    { s.store with
                      slots := s.store.slots.set slot ⟨.empty, false, true, none, 0, 0⟩
                      writeQueue := queue
                      op := some (.fontDrop slot (firstBankOf v) ((v.header.map (·.lastBank)).getD 0))
                      nv := nv } }))
      ∧ (v.state = .ready ∨ v.state = .damaged → s.store.nv.boundary ≤ firstBankOf v → fontInUse s slot = false →
          v.locked = false →
        exec (.fontLock tag slot) s
          = .next
            (reservedFor tag 0x24#8
              { s with
                store :=
                  { s.store with
                    slots := s.store.slots.set slot { v with busy := true }
                    op := some (.fontLock slot) } }))
      ∧ (v.state = .ready ∨ v.state = .damaged →
        exec (.fontCheck tag slot) s
          = .next
            (reservedFor tag 0x25#8
              { s with
                store :=
                  { s.store with
                    slots := s.store.slots.set slot { v with busy := true }
                    op := some (.fontCheck slot) } }))
      ∧ (∀ b, s.settings.power = .standby → b ∈ [0, 4, 8, 16, 32] → s.store.nv.boundary < b →
          loadingBelow s.store b = false →
        exec (.protectRaise tag b) s
          = .next (reservedFor tag 0x28#8 { s with store := { s.store with op := some (.protectRaise b) } }))
      ∧ (s.settings.power = .standby → s.store.writeQueue = [] →
        exec (.storeWipe tag) s
          = .next
            (reservedFor tag 0x29#8
              { s with
                store :=
                  { s.store with
                    slots := s.store.slots.map (fun _ => ⟨.empty, false, true, none, 0, 0⟩)
                    op := some .storeWipe
                    nv := { s.store.nv with wipeMark := true } } })))

/-- FONT_LIST and GLYPH_GET change nothing. FONT_LIST reports the boundary, the operation and sixteen slots with the fields
R36 gives each state; GLYPH_GET of an unlocked font that is not busy answers the index's current record, and NOT_FOUND when
there is none. While an earlier font request is undecided, the answer waits its turn in a RESERVED place. A glyph lookup is
real in a READY slot for a put index below the glyph count, else the fallback box with its advance; a metrics lookup
gives the header's ascent and descent, 0 and 0 for an EMPTY slot (R27, R31, R36, R41, R42). -/
def Obligations.FontListAndGlyphGet : Prop :=
  (∀ (s : State) (tag : Byte) (slot index : Nat) (h : FontHeader),
    (∀ (e : HeldReply) (rest : List HeldReply), Ready s → s.store.held = e :: rest → e.answer = none →
      ∃ fields,
        exec (.fontList tag) s
          = .next
            { s with
              link := { s.link with reserved := s.link.reserved + 1 }
              store := { s.store with held := s.store.held ++ [⟨tag, 0x26#8, some (.ok, fields)⟩] } })
    ∧ (FontReady s →
    (∃ slots, slots.length = 16
      ∧ (∀ i, i < 16 → ∃ e, slots[i]? = some e ∧ e.state = (fontSlot s.store i).state
          ∧ e.locked = (fontSlot s.store i).locked ∧ e.busy = (fontSlot s.store i).busy
          ∧ (e.state = .empty → e.header = none)
          ∧ (∀ v, e.state ≠ .empty → (fontSlot s.store i).header = some v →
            ∃ n, e.header = some (v.nameTag, v.glyphCount, v.firstBank, v.lastBank, n)
              ∧ n = (currentGlyphs s.store i).length
              ∧ (((currentGlyphs s.store i).map Prod.fst).Nodup →
                (∀ p ∈ currentGlyphs s.store i, p.1 < v.glyphCount) →
                n = ((List.range v.glyphCount).filter (fun k => (currentGlyph s.store i k).isSome)).length))
          ∧ (e.state = .loading → e.upload = some ((fontSlot s.store i).cursor, (fontSlot s.store i).used))
          ∧ (e.state ≠ .loading → e.upload = none)
          ∧ (∀ f, e.state = .ready ∨ e.state = .damaged → nvFont s.store i = some f → e.checksum = some f.checksum)
          ∧ (e.state = .empty ∨ e.state = .loading → e.checksum = none))
      ∧ exec (.fontList tag) s
        = .next (replied tag 0x26#8 .ok (.fontList s.store.nv.boundary (s.store.op.map opKind) slots) s))
    ∧ (slot < 16 → (fontSlot s.store slot).busy = false → (fontSlot s.store slot).state ≠ .empty →
        (fontSlot s.store slot).locked = false → (fontSlot s.store slot).header = some h → index < h.glyphCount →
      (∀ g, currentGlyph s.store slot index = some g →
        exec (.glyphGet tag slot index) s = .next (replied tag 0x27#8 .ok (.glyph index g) s))
      ∧ (currentGlyph s.store slot index = none →
        exec (.glyphGet tag slot index) s = .next (replied tag 0x27#8 .notFound .none s)))
    ∧ (slot < 16 → (fontSlot s.store slot).busy = false → (fontSlot s.store slot).state ≠ .empty →
        (fontSlot s.store slot).locked = true →
      exec (.glyphGet tag slot index) s = .next (replied tag 0x27#8 .locked .none s))))
    ∧ ∀ (st : FontStore) (slot index : Nat),
      ((fontSlot st slot).state = .empty → glyphLookup st slot index = .fallback 128 ∧ fontMetrics st slot = (0, 0))
      ∧ ∀ h, (fontSlot st slot).state ≠ .empty → (fontSlot st slot).header = some h →
        fontMetrics st slot = (h.ascent, h.descent)
        ∧ (∀ g, (fontSlot st slot).state = .ready → index < h.glyphCount → currentGlyph st slot index = some g →
          glyphLookup st slot index = .real g)
        ∧ ((fontSlot st slot).state ≠ .ready ∨ h.glyphCount ≤ index ∨ currentGlyph st slot index = none →
          glyphLookup st slot index = .fallback h.defaultAdvance)

/-- WRITE_ENTRY_PROGRAMMED: the oldest entry leaves the write queue, and a FONT_END in progress waits for one entry
less. A header entry lays a new font down in the banks; a glyph entry changes the glyphs of its font alone; a
FONT_DROP of the same slot then marks the font dropped (R29, R32, R34); that it does so at this command is the model's
deduction of log entry 22. -/
def Obligations.WriteEntryIsProgrammed : Prop :=
  ∀ (s : State) (e : WriteEntry) (rest : List WriteEntry) (dropping : Bool), s.store.writeQueue = e :: rest →
    (dropping = true ↔ ∃ a b, s.store.op = some (.fontDrop (entrySlot e) a b)) →
    ∃ nv op,
      exec .writeEntryProgrammed s = .next { s with store := { s.store with writeQueue := rest, nv := nv, op := op } }
      ∧ (∀ slot n, s.store.op = some (.fontEnd slot n) → op = some (.fontEnd slot (n - 1)))
      ∧ ((∀ slot n, s.store.op ≠ some (.fontEnd slot n)) → op = s.store.op)
      ∧ nv.boundary = s.store.nv.boundary ∧ nv.wipeMark = s.store.nv.wipeMark
      ∧ (∀ i, i ≠ entrySlot e → nv.fonts[i]? = s.store.nv.fonts[i]?)
      ∧ (∀ slot h, e = .header slot h → slot < s.store.nv.fonts.length →
          nv.fonts[slot]? = some (some ⟨h, [], false, dropping, 0, false⟩))
      ∧ (∀ slot recs f, e = .glyphs slot recs → s.store.nv.fonts[slot]? = some (some f) →
          nv.fonts[slot]? = some (some { f with glyphs := recs.foldl putGlyph f.glyphs, dropped := f.dropped || dropping }))

/-- FONT_END_COMPLETE, once no earlier write entry is left: the slot is READY and not busy, the unlocked checksum and
the end mark are programmed. FONT_LOCK_COMPLETE sets the locked flag and programs the locked-form checksum.
FONT_CHECK_COMPLETE makes the slot READY on a match and DAMAGED on a mismatch, and posts FONT_DAMAGED when a READY
font is found damaged. Each fills the held place (R32, R33, R35, R37).
That the READY slot's cursor and used bytes are 0 after FONT_END is the model's choice of log entry 27. -/
def Obligations.FontOperationsComplete : Prop :=
  (∀ (s : State) (slot : Nat) (tag kind : Byte) (f : NvFont), s.store.op = some (.fontEnd slot 0) →
    s.store.held = [⟨tag, kind, none⟩] → s.link.reserved = 1 → slot < s.store.slots.length →
    s.store.nv.fonts[slot]? = some (some f) →
    ∃ sum, sum = checksumUnlocked (currentGlyphs s.store slot)
      ∧ exec .fontEndComplete s
        = .next
          (replied tag kind .ok (.fontEnd sum (currentGlyphs s.store slot).length)
            { s with
              link := { s.link with reserved := 0 }
              store :=
                { s.store with
                  slots := s.store.slots.set slot ⟨.ready, false, false, (fontSlot s.store slot).header, 0, 0⟩
                  op := none
                  held := []
                  nv :=
                    { s.store.nv with
                      fonts :=
                        s.store.nv.fonts.set slot (some { f with endMark := true, checksum := sum, locked := false }) } } }))
    ∧ ∀ (s : State) (slot : Nat) (tag kind : Byte) (h : FontHeader) (f : NvFont),
    s.store.held = [⟨tag, kind, none⟩] → s.link.reserved = 1 → slot < s.store.slots.length →
    (fontSlot s.store slot).header = some h → s.store.nv.fonts[slot]? = some (some f) →
    (s.store.op = some (.fontLock slot) →
      exec .fontLockComplete s
        = .next
          (replied tag kind .ok (.fontLock (checksumLocked h))
            { s with
              link := { s.link with reserved := 0 }
              store :=
                { s.store with
                  slots := s.store.slots.set slot { fontSlot s.store slot with locked := true, busy := false }
                  op := none
                  held := []
                  nv :=
                    { s.store.nv with
                      fonts := s.store.nv.fonts.set slot (some { f with locked := true, checksum := checksumLocked h }) } } }))
    ∧ (s.store.op = some (.fontCheck slot) →
      ∃ computed isMatch notices,
        (f.locked = false → computed = checksumUnlocked f.glyphs) ∧ (f.locked = true → computed = checksumLocked f.header)
        ∧ (isMatch = true ↔ computed = f.checksum)
        ∧ (isMatch = true ∨ (fontSlot s.store slot).state ≠ .ready → notices = s.notices)
        ∧ (isMatch = false → (fontSlot s.store slot).state = .ready →
            notices
              = (post (.fontDamaged slot h.nameTag (fontSlot s.store slot).locked f.checksum computed) s).notices)
        ∧ exec .fontCheckComplete s
          = .next
            (replied tag kind .ok (.fontCheck isMatch f.checksum computed)
              { s with
                link := { s.link with reserved := 0 }
                notices := notices
                store :=
                  { s.store with
                    slots :=
                      s.store.slots.set slot
                        { fontSlot s.store slot with state := if isMatch then .ready else .damaged, busy := false }
                    op := none
                    held := [] } }))

/-- FONT_DROP_COMPLETE leaves the slot EMPTY and its banks free of the font; STORE_WIPE_COMPLETE clears every busy
flag and leaves the banks as delivered; PROTECT_RAISE_COMPLETE programs the boundary; each fills the held place (R34,
R38, R39). Over any step that finds no wipe mark, the boundary does not fall, the fonts that reach below it stay as they are,
and no other font comes to reach below it; StoreWf, kept by every step, is the model's condition for that (R38). -/
def Obligations.EraseAndProtectComplete : Prop :=
  (∀ (s : State) (tag kind : Byte), s.store.held = [⟨tag, kind, none⟩] → s.link.reserved = 1 →
    (∀ slot first last, s.store.op = some (.fontDrop slot first last) → (∀ e ∈ s.store.writeQueue, entrySlot e ≠ slot) →
      exec .fontDropComplete s
        = .next
          (replied tag kind .ok .none
            { s with
              link := { s.link with reserved := 0 }
              store :=
                { s.store with
                  slots := s.store.slots.set slot FontSlot.vacant
                  op := none
                  held := []
                  nv := { s.store.nv with fonts := s.store.nv.fonts.set slot none } } }))
    ∧ (s.store.op = some .storeWipe →
      exec .storeWipeComplete s
        = .next
          (replied tag kind .ok .none
            { s with
              link := { s.link with reserved := 0 }
              store :=
                { s.store with
                  slots := s.store.slots.map (fun v => { v with busy := false })
                  op := none
                  held := []
                  nv := ⟨List.replicate 16 none, 0, false⟩ } }))
    ∧ (∀ value, s.store.op = some (.protectRaise value) →
      exec .protectRaiseComplete s
        = .next
          (replied tag kind .ok (.boundary value)
            { s with
              link := { s.link with reserved := 0 }
              store := { s.store with op := none, held := [], nv := { s.store.nv with boundary := value } } })))
    ∧ ∀ s t : State, StoreWf s → step s = .next t →
      StoreWf t
      ∧ (s.store.nv.wipeMark = false →
        s.store.nv.boundary ≤ t.store.nv.boundary
        ∧ ∀ (i : Nat) (f : NvFont), f.header.firstBank < s.store.nv.boundary →
          (nvFont t.store i = some f ↔ nvFont s.store i = some f))

/-! ### Compose jobs and frame records -/

/-- An accepted COMPOSE appends one QUEUED job with the clipped rectangle and answers it; the checks refuse in their
order (R43). -/
def Obligations.ComposeQueuesJob : Prop :=
  ∀ (s : State) (tag : Byte) (f : ComposeFields) (r : PRect), r = clipRect f.x f.y f.w f.h (panelRect s) →
    (Ready s → s.settings.power = .standby → exec (.compose tag f) s = .next (replied tag 0x30#8 .notActive .none s))
    ∧ (ReadyActive s →
      (f.tag < 1 ∨ 255 < f.tag ∨ 3 < f.flow ∨ 31 < f.style ∨ 16384 < f.start.run ∨ 31 < f.start.off) →
        exec (.compose tag f) s = .next (replied tag 0x30#8 .badArgument .none s))
    ∧ (ReadyActive s →
      1 ≤ f.tag → f.tag ≤ 255 → f.flow ≤ 3 → f.style ≤ 31 → f.start.run ≤ 16384 → f.start.off ≤ 31 →
        (r.w < 16 ∨ r.h < 4 → exec (.compose tag f) s = .next (replied tag 0x30#8 .badArgument .none s))
        ∧ (16 ≤ r.w → 4 ≤ r.h →
          ((∃ j ∈ s.comp.jobs, j.tag = f.tag) ∨ (∃ j, s.comp.started = some j ∧ j.spec.tag = f.tag) →
            exec (.compose tag f) s = .next (replied tag 0x30#8 .exists_ .none s))
          ∧ ((∀ j ∈ s.comp.jobs, j.tag ≠ f.tag) → (∀ j, s.comp.started = some j → j.spec.tag ≠ f.tag) →
            (4 ≤ s.comp.jobs.length → exec (.compose tag f) s = .next (replied tag 0x30#8 .full .none s))
            ∧ (s.comp.jobs.length < 4 →
              exec (.compose tag f) s
                = .next
                  (replied tag 0x30#8 .ok (.compose f.tag r)
                    { s with
                      comp :=
                        { s.comp with
                          jobs :=
                            s.comp.jobs ++ [⟨f.tag, f.flow, f.start, f.style, r, f.marginLeft, f.marginRight⟩] } })))))

/-- COMPOSE_ABORT: a QUEUED job leaves the queue with a notice, a RUNNING one has the abort recorded, a SUSPENDED one
ends and its record is released; no such job is NOT_FOUND (R55, R56). -/
def Obligations.ComposeAbortByState : Prop :=
  ∀ (s : State) (tag : Byte) (t : Nat), Ready s →
    (∀ j, s.comp.jobs.find? (fun j => j.tag == t) = some j →
      exec (.composeAbort tag t) s
        = .next
          (replied tag 0x31#8 .ok (.jobState .queued)
            (post (.composeAborted t .queued 0 j.start none)
              { s with comp := { s.comp with jobs := s.comp.jobs.filter (fun q => q.tag != t) } })))
    ∧ ((∀ j ∈ s.comp.jobs, j.tag ≠ t) →
      (∀ j, s.comp.started = some j → j.spec.tag = t → j.running = true →
        exec (.composeAbort tag t) s
          = .next
            (replied tag 0x31#8 .ok (.jobState .running)
              { s with comp := { s.comp with started := some { j with abortAsked := true } } }))
      ∧ (∀ j, s.comp.started = some j → j.spec.tag = t → j.running = false →
        ∃ c,
          exec (.composeAbort tag t) s
            = .next
              (replied tag 0x31#8 .ok (.jobState .suspended)
                (post
                  (.composeAborted t .suspended (frameAt s.comp j.slot).lines.length
                    (((frameAt s.comp j.slot).lines.getLast?.map (·.stop)).getD j.spec.start)
                    (some ⟨j.slot, j.gen, j.overlapped, j.evicted⟩))
                  { s with comp := c }))
          ∧ c.started = none ∧ c.jobs = s.comp.jobs ∧ c.path = s.comp.path ∧ c.commit = s.comp.commit
          ∧ (j.slot < s.comp.frames.length → frameAt c j.slot = FrameRec.vacant (frameAt s.comp j.slot).gen)
          ∧ ∀ i, i ≠ j.slot → frameAt c i = frameAt s.comp i)
      ∧ ((∀ j, s.comp.started = some j → j.spec.tag ≠ t) →
        exec (.composeAbort tag t) s = .next (replied tag 0x31#8 .notFound .none s)))

/-- FRAME_RELEASE frees a LIVE record's slot, keeping its generation, drops its waiting retint job and tells a running
one to stop; the planes, tiles and notes stay (R56, R57). -/
def Obligations.FrameReleaseFreesSlot : Prop :=
  ∀ (s : State) (tag : Byte) (slot gen : Nat), Ready s →
    (slot < 8 → slot < s.comp.frames.length → (frameAt s.comp slot).state = .live → (frameAt s.comp slot).gen = gen →
      ∃ c,
        exec (.frameRelease tag slot gen) s = .next (replied tag 0x32#8 .ok .none { s with comp := c })
        ∧ frameAt c slot = FrameRec.vacant gen ∧ (∀ i, i ≠ slot → frameAt c i = frameAt s.comp i)
        ∧ c.liveOrder = s.comp.liveOrder.filter (fun i => i != slot)
        ∧ (∀ e ∈ c.retints, e.slot = slot → e.gen = gen → ∃ r, e.run = some r ∧ r.released = true)
        ∧ (∀ e ∈ s.comp.retints, e.slot ≠ slot ∨ e.gen ≠ gen → e ∈ c.retints)
        ∧ c.jobs = s.comp.jobs ∧ c.started = s.comp.started ∧ c.path = s.comp.path ∧ c.commit = s.comp.commit)
    ∧ (8 ≤ slot → exec (.frameRelease tag slot gen) s = .next (replied tag 0x32#8 .badArgument .none s))
    ∧ (slot < 8 → (frameAt s.comp slot).state = .free ∨ (frameAt s.comp slot).gen ≠ gen →
      exec (.frameRelease tag slot gen) s = .next (replied tag 0x32#8 .notFound .none s))
    ∧ (slot < 8 → (frameAt s.comp slot).state = .opened → (frameAt s.comp slot).gen = gen →
      exec (.frameRelease tag slot gen) s = .next (replied tag 0x32#8 .busy .none s))

/-- FRAME_INFO reports a LIVE record with at most 16 line records from the first line asked for. LOCATE answers
NOT_FOUND for a row in no band; otherwise the column is resolved on the recomputed line by the spans of its items.
Neither changes anything, and both refuse a record that is not LIVE (R58, R79, R80). -/
def Obligations.FrameInfoAndLocateReport : Prop :=
  ∀ (s : State) (tag : Byte) (slot gen : Nat) (f : FrameRec), Ready s → f = frameAt s.comp slot →
    (∀ e : Status,
        (8 ≤ slot ∧ e = .badArgument) ∨ (slot < 8 ∧ (f.state = .free ∨ f.gen ≠ gen) ∧ e = .notFound)
            ∨ (slot < 8 ∧ f.state = .opened ∧ f.gen = gen ∧ e = .busy) →
        (∀ first, exec (.frameInfo tag slot gen first) s = .next (replied tag 0x33#8 e .none s))
        ∧ ∀ x y, exec (.locate tag slot gen x y) s = .next (replied tag 0x34#8 e .none s))
    ∧ (slot < 8 → f.state = .live → f.gen = gen →
      (∀ first, ∃ job,
        (job = RetintState.running ↔ ∃ e ∈ s.comp.retints, e.slot = slot ∧ e.gen = gen ∧ e.run ≠ none)
        ∧ (job = RetintState.absent ↔ ∀ e ∈ s.comp.retints, e.slot ≠ slot ∨ e.gen ≠ gen)
        ∧ exec (.frameInfo tag slot gen first) s
          = .next
            (replied tag 0x33#8 .ok
              (.frame
                { flow := f.flow, start := f.start, stop := f.stop, rect := f.rect, marginLeft := f.marginLeft
                  marginRight := f.marginRight, lineCount := f.lines.length, retint := f.retint, retintState := job
                  flowDepth := f.stack.flow.length, ignored := f.stack.ignored, mode := f.stack.mode
                  lines := (f.lines.drop first).take 16 }) s))
      ∧ ∀ x y,
        ((∀ l ∈ f.lines, ¬(f.rect.y + l.top ≤ y ∧ y < f.rect.y + l.top + l.height)) →
          exec (.locate tag slot gen x y) s = .next (replied tag 0x34#8 .notFound .none s))
        ∧ ∀ (before after : List LineRec) (l : LineRec), f.lines = before ++ l :: after →
          (∀ b ∈ before, ¬(f.rect.y + b.top ≤ y ∧ y < f.rect.y + b.top + b.height)) →
          f.rect.y + l.top ≤ y → y < f.rect.y + l.top + l.height →
            ∃ hit pos,
              exec (.locate tag slot gen x y) s
                = .next (replied tag 0x34#8 .ok (.located l.index l.start l.stop hit pos) s)
              ∧ (layLine s f l = [] → hit = .before ∧ pos = l.start)
              ∧ (∀ a rest, layLine s f l = a :: rest → x < f.rect.x + pixelOf a.pen → hit = .before ∧ pos = l.start)
              ∧ (layLine s f l ≠ [] →
                  (∀ a ∈ layLine s f l, f.rect.x + pixelOf a.pen ≤ x ∧ f.rect.x + pixelOf a.next ≤ x) →
                  hit = .after ∧ pos = l.stop)
              ∧ ∀ pre a post, layLine s f l = pre ++ a :: post →
                (∀ b ∈ pre, ¬(f.rect.x + pixelOf b.pen ≤ x ∧ x < f.rect.x + pixelOf b.next)) →
                f.rect.x + pixelOf a.pen ≤ x → x < f.rect.x + pixelOf a.next →
                  (∀ g p, a.item = .glyph g → g.pos = some p → hit = .glyph ∧ pos = p)
                  ∧ (∀ g, a.item = .glyph g → g.pos = none → hit = .hyphen ∧ pos = l.stop)
                  ∧ ∀ g, a.item = .gap g → hit = .gap ∧ pos = g.pos)

/-! ### The raster path and the passes -/

/-- RASTER_PATH_GRANT in ACTIVE on a free path: the oldest waiting retint job starts on its record's pending range;
else a pending commit latches; else the suspended job goes on; else the oldest queued job starts and claims a record.
A commit
without a work-dirty tile ends at once. A starting job releases the LIVE records whose areas meet its own and counts them;
with no slot FREE then, the record first in the live order is released and named as evicted. With the path held, or outside
ACTIVE, or without a claimant nothing happens (R46, R47, R49, R97, R117, R118). That a command whose
condition does not hold leaves the state as it is, is the model's choice of log entry 1. -/
def Obligations.GrantFollowsPrecedence : Prop :=
  ∀ (s : State),
    (s.settings.power ≠ .active ∨ s.comp.path ≠ .free → exec .rasterPathGrant s = .next s)
    ∧ (s.settings.power = .active → s.comp.path = .free →
      (∀ (before after : List RetintEntry) (e : RetintEntry) (lo hi : Nat), s.comp.retints = before ++ e :: after →
          (∀ b ∈ before, b.run ≠ none) → e.run = none → (frameAt s.comp e.slot).retint = some (lo, hi) →
          e.slot < s.comp.frames.length →
        ∃ t run, exec .rasterPathGrant s = .next t
          ∧ t.comp.path = .retintJob ∧ t.comp.retints = before ++ ⟨e.slot, e.gen, some run⟩ :: after
          ∧ run.lo = lo ∧ run.hi = hi ∧ run.current = lo ∧ run.redrawn = 0 ∧ run.suppressed = 0 ∧ run.released = false
          ∧ run.spanLength = applied t 4 ∧ run.paper = applied t 5
          ∧ (frameAt t.comp e.slot) = { frameAt s.comp e.slot with retint := none }
          ∧ t = { s with comp := t.comp, settings := applyBoundary .jobBoundary s.settings })
      ∧ ((∀ e ∈ s.comp.retints, e.run ≠ none) →
        (∀ c, s.comp.commit = .pending c →
          (∃ (i : Nat) (t : TileRec), s.sched.tiles[i]? = some t ∧ t.workDirty = true
              ∧ inTileRect c.rect (i % tileCols s) (i / tileCols s) = true) →
          exec .rasterPathGrant s
            = .next { s with comp := { s.comp with path := .latch, commit := .latching c 0 [] 0 } })
        ∧ (∀ c, s.comp.commit = .pending c →
          (∀ (i : Nat) (t : TileRec), s.sched.tiles[i]? = some t →
              inTileRect c.rect (i % tileCols s) (i / tileCols s) = true → t.workDirty = false) →
          exec .rasterPathGrant s
            = .next (post (.commitDone c.mode c.cls c.rect 0 0 0) { s with comp := { s.comp with commit := .empty } }))
        ∧ ((∀ c, s.comp.commit ≠ .pending c) →
          (∀ j, s.comp.started = some j →
            exec .rasterPathGrant s
              = .next { s with comp := { s.comp with path := .composeJob, started := some { j with running := true } } })
          ∧ (s.comp.started = none →
            (s.comp.jobs = [] → exec .rasterPathGrant s = .next s)
            ∧ ∀ (q : JobSpec) (rest : List JobSpec) (meets : Nat → Bool), s.comp.jobs = q :: rest →
              s.comp.frames.length = 8 →
              (∀ i, meets i = true ↔
                i < 8 ∧ (frameAt s.comp i).state = .live
                  ∧ rectsMeet (areaOf (panelRect s) q.rect q.marginLeft q.marginRight)
                    (areaOf (panelRect s) (frameAt s.comp i).rect (frameAt s.comp i).marginLeft
                      (frameAt s.comp i).marginRight) = true) →
              ((∃ i, i < 8 ∧ ((frameAt s.comp i).state = .free ∨ meets i = true))
                ∨ ∃ first more, s.comp.liveOrder = first :: more ∧ first < 8) →
              ∃ t j, exec .rasterPathGrant s = .next t
                ∧ t.comp.path = .composeJob ∧ t.comp.jobs = rest ∧ t.comp.started = some j
                ∧ j.spec = q ∧ j.running = true ∧ j.phase = .replay ∧ j.abortAsked = false ∧ j.missing = 0
                ∧ j.limit = (s.flows.getD q.flow []).length
                ∧ j.spanLength = applied t 4 ∧ j.paper = applied t 5
                ∧ j.stack.flow = [s.styles.getD q.style Style.default] ∧ j.stack.ignored = 0
                ∧ j.stack.level6 = none ∧ j.stack.level7 = none
                ∧ j.stack.mode = (if applied t 3 = 0 then .lenient else .strict)
                ∧ j.overlapped = ((List.range 8).filter meets).length
                ∧ j.slot < 8 ∧ (frameAt t.comp j.slot).state = .opened
                ∧ j.gen = ((frameAt s.comp j.slot).gen + 1) % 65536 ∧ (frameAt t.comp j.slot).gen = j.gen
                ∧ (frameAt t.comp j.slot).lines = [] ∧ (frameAt t.comp j.slot).start = q.start
                ∧ ((∃ i, i < 8 ∧ ((frameAt s.comp i).state = .free ∨ meets i = true)) →
                  j.evicted = none ∧ (∀ i, i < j.slot → (frameAt t.comp i).state ≠ .free)
                  ∧ ((frameAt s.comp j.slot).state = .free ∨ meets j.slot = true)
                  ∧ t.comp.liveOrder = s.comp.liveOrder.filter (fun i => !meets i)
                  ∧ ∀ i, i < 8 → i ≠ j.slot →
                    frameAt t.comp i
                      = if meets i = true then FrameRec.vacant (frameAt s.comp i).gen else frameAt s.comp i)
                ∧ (∀ first more, (∀ i, i < 8 → (frameAt s.comp i).state ≠ .free ∧ meets i = false) →
                    s.comp.liveOrder = first :: more → first < 8 →
                  j.evicted = some (first, (frameAt s.comp first).gen) ∧ j.slot = first
                  ∧ t.comp.liveOrder = more.filter (fun i => i != first)
                  ∧ ∀ i, i < 8 → i ≠ first → frameAt t.comp i = frameAt s.comp i)
                ∧ t = { s with comp := t.comp, settings := applyBoundary .jobBoundary s.settings }))))

/-- A STYLE_PUSH below depth 6 copies the table record above the top; at depth 6 it is counted in LENIENT mode and
fails in STRICT mode; a STYLE_POP undoes an ignored push first, then removes the top entry, and at the base does
nothing in LENIENT mode and fails in STRICT mode; a STYLE_PATCH changes the top entry as STYLE_DEFINE changes a record. Around
a margin item levels 6 and 7 hold the margin style and its copy with the note's ink, and are emptied; nothing else of the
stack changes. REPLAY_END without failure hands the replayed stack to the LINES pass and to the frame record; a start at or
past the limit ends the job DONE without lines; an abort recorded ends it ABORTED, a waiting retint job suspends it; a STRICT
failure ends it FAILED: its record is released, the path is free and COMPOSE_FAILED is posted (R17 to R22, R48, R52 to R55,
R92). That every push of a replay reads the table as it stands at REPLAY_END is the model's deduction of log entry 8. -/
def Obligations.StackIsReplayed : Prop :=
  (∀ (table : List Style) (id : Nat) (st : StyleStack),
    (st.flow.length < 6 → pushStyle table id st = .ok { st with flow := st.flow ++ [table.getD id Style.default] })
    ∧ (6 ≤ st.flow.length → st.mode = .lenient → pushStyle table id st = .ok { st with ignored := st.ignored + 1 })
    ∧ (6 ≤ st.flow.length → st.mode = .strict → pushStyle table id st = .error .styleOverflow)
    ∧ (0 < st.ignored → popStyle st = .ok { st with ignored := st.ignored - 1 })
    ∧ (st.ignored = 0 → 2 ≤ st.flow.length → popStyle st = .ok { st with flow := st.flow.dropLast })
    ∧ (st.ignored = 0 → st.flow.length ≤ 1 → st.mode = .lenient → popStyle st = .ok st)
    ∧ (st.ignored = 0 → st.flow.length ≤ 1 → st.mode = .strict → popStyle st = .error .styleUnderflow)
    ∧ ∀ (f : StyleFields) (below : List Style) (top : Style), st.flow = below ++ [top] →
        (∀ c, f.alignment = some c → c ≤ 3) →
      ∃ v,
        stackStep table (.stylePatch f) st = .ok { st with flow := below ++ [v] }
        ∧ ∀ (s : State) (tag : Byte) (k : Nat), Ready s → k ≤ 31 → s.styles[k]? = some top →
          exec (.styleDefine tag k f) s
            = .next (replied tag 0x13#8 .ok (.style v) { s with styles := s.styles.set k v }))
    ∧ (∀ (frame : FrameRec) (line : LineRec) (w : LineWork) (s : State) (n : Note),
      (∃ v placed,
        v = s.styles.getD (n.marginStyle.getD 0) Style.default
        ∧ placed = { w.stack with level6 := some v, level7 := some { v with ink := n.ink } }
        ∧ drawLineOp frame line (w, s) (.item n)
          = ({ w with
                stack := { w.stack with level6 := none, level7 := none }
                missing := w.missing + ((marginEntries s frame line placed n).filter (fun e => e.glyph.isNone)).length },
              drawMargin frame line n.side (marginEntries s frame line placed n) s))
      ∧ drawLineOp frame line (w, s) (.piece n) = (w, drawPiece frame line w.laid s n))
    ∧ ∀ (s : State) (j : Job) (f : FrameRec) (recs : List RunRecord) (p : Pos) (st : StyleStack)
      (bad : Option (FailReason × Pos)),
    s.comp.started = some j → j.running = true → j.phase = .replay → s.comp.frames[j.slot]? = some f →
    recs = (s.flows.getD j.spec.flow []).take j.limit →
    p = normalise recs j.spec.start → runStyles s.styles (recs.take p.run) 0 j.stack = (st, bad) →
      (bad = none → p.run < j.limit → j.abortAsked = false →
        ((∀ e ∈ s.comp.retints, e.run ≠ none) →
          exec .replayEnd s
            = .next
              { s with
                comp :=
                  { s.comp with
                    frames := s.comp.frames.set j.slot { f with stack := st }
                    started := some { j with stack := st, current := p, phase := .fill } } })
        ∧ ((∃ e ∈ s.comp.retints, e.run = none) →
          exec .replayEnd s
            = .next
              { s with
                comp :=
                  { s.comp with
                    frames := s.comp.frames.set j.slot { f with stack := st }
                    started := some { j with stack := st, current := p, phase := .fill, running := false }
                    path := .free } }))
      ∧ (bad = none → j.limit ≤ p.run → j.abortAsked = false →
        ((∀ e ∈ s.comp.retints, e.run ≠ none) → f.lines = [] →
          exec .replayEnd s
            = .next
              (post
                (.composeDone j.spec.tag j.slot j.gen ⟨j.limit, 0⟩ 0 0 0 0 (min j.missing 65535) (min st.ignored 65535)
                  j.overlapped j.evicted (min j.suppressed 65535))
                { s with
                  comp :=
                    { s.comp with
                      started := none
                      path := .free
                      liveOrder := s.comp.liveOrder ++ [j.slot]
                      frames :=
                        s.comp.frames.set j.slot
                          { f with
                            state := .live, stop := ⟨j.limit, 0⟩, stack := st, retint := f.late, late := none
                            snapshot := none }
                      retints :=
                        if f.late = none then s.comp.retints else s.comp.retints ++ [⟨j.slot, j.gen, none⟩] } }))
        ∧ ((∃ e ∈ s.comp.retints, e.run = none) →
          exec .replayEnd s
            = .next
              { s with
                comp :=
                  { s.comp with
                    frames := s.comp.frames.set j.slot { f with stack := st }
                    started :=
                      some
                        { j with
                          stack := st, current := p, stop := ⟨j.limit, 0⟩, phase := .overlay 0, running := false }
                    path := .free } }))
      ∧ (bad = none → j.abortAsked = true →
        ∃ c,
          exec .replayEnd s
            = .next
              (post
                (.composeAborted j.spec.tag .running f.lines.length ((f.lines.getLast?.map (·.stop)).getD j.spec.start)
                  (some ⟨j.slot, j.gen, j.overlapped, j.evicted⟩)) { s with comp := c })
          ∧ c.started = none ∧ c.path = .free ∧ frameAt c j.slot = FrameRec.vacant f.gen)
      ∧ (∀ reason at_, bad = some (reason, at_) →
        ∃ c,
          exec .replayEnd s
            = .next
              (post
                (.composeFailed j.spec.tag reason at_ .replay f.lines.length ⟨j.slot, j.gen, j.overlapped, j.evicted⟩)
                { s with comp := c })
          ∧ c.started = none ∧ c.path = .free ∧ frameAt c j.slot = FrameRec.vacant f.gen)

/-- PAGE_PAPER_FILL sets every pixel of the job's area in W to the paper level and no other pixel, and sets work-dirty
on exactly the tiles that hold such a pixel (R106, R111). -/
def Obligations.PaperFillCoversArea : Prop :=
  ∀ (s : State) (j : Job) (a : PRect), s.comp.started = some j → j.running = true → j.phase = .fill → PlaneWf s.planes.w →
    a = areaOf (panelRect s) j.spec.rect j.spec.marginLeft j.spec.marginRight → panelWidth s ≤ 4096 →
      ∃ w tiles,
        exec .pagePaperFill s
          = .next
            { s with
              planes := { s.planes with w := w }
              sched := { s.sched with tiles := tiles }
              comp := { s.comp with started := some { j with phase := .lines } } }
        ∧ (∀ x y, x < 4096 →
            pixelAt w x y
              = if a.x ≤ x ∧ x < a.x + a.w ∧ a.y ≤ y ∧ y < a.y + a.h then j.paper else pixelAt s.planes.w x y)
        ∧ tiles.length = s.sched.tiles.length
        ∧ ∀ (i : Nat) (t : TileRec), s.sched.tiles[i]? = some t →
          ((∃ x y, a.x ≤ x ∧ x < a.x + a.w ∧ a.y ≤ y ∧ y < a.y + a.h ∧ x / 64 = i % tileCols s ∧ y / 64 = i / tileCols s) →
            tiles[i]? = some { t with workDirty := true })
          ∧ ((¬∃ x y, a.x ≤ x ∧ x < a.x + a.w ∧ a.y ≤ y ∧ y < a.y + a.h ∧ x / 64 = i % tileCols s ∧ y / 64 = i / tileCols s) →
            tiles[i]? = some t)

/-- LINE_SET: a set line that does not fit stops the LINES pass at the current position and the OVERLAY pass begins
with its snapshot; one that fits with a STRICT failure in its range ends the job FAILED; one that fits with glyphs to
draw is drawn next (R51, R52, R68, R95). -/
def Obligations.LineSetFitsOrStops : Prop :=
  ∀ (s : State) (j : Job) (w : WorkingLine), s.comp.started = some j → j.running = true → j.phase = .lines →
    w = jobLine s j → s.comp.frames[j.slot]? = some (frameAt s.comp j.slot) →
      (j.spec.rect.h < w.record.top + w.record.height → (frameAt s.comp j.slot).lines ≠ [] →
        exec .lineSet s
          = .next
            { s with
              comp :=
                { s.comp with
                  started := some { j with phase := .overlay 0, stop := j.current }
                  frames :=
                    s.comp.frames.set j.slot
                      { frameAt s.comp j.slot with
                        snapshot :=
                          some (s.notes.filter (fun n => n.flow == (frameAt s.comp j.slot).flow)) } } })
      ∧ (w.record.top + w.record.height ≤ j.spec.rect.h →
        lineFailure (jobEnv s j) (normalise (jobRecs s j) j.current) w.record.stop j.stack = none → w.entries ≠ [] →
          exec .lineSet s
            = .next
              { s with
                comp :=
                  { s.comp with
                    started :=
                      some
                        { j with
                          missing := j.missing + (w.entries.filter (fun e => e.glyph.isNone)).length
                          phase := .drawing w 0 } } })
      ∧ (∀ reason at_, w.record.top + w.record.height ≤ j.spec.rect.h →
        lineFailure (jobEnv s j) (normalise (jobRecs s j) j.current) w.record.stop j.stack = some (reason, at_) →
          ∃ c,
            exec .lineSet s
              = .next
                (post
                  (.composeFailed j.spec.tag reason at_ .lines (frameAt s.comp j.slot).lines.length
                    ⟨j.slot, j.gen, j.overlapped, j.evicted⟩) { s with comp := c })
            ∧ c.started = none ∧ c.path = .free)

/-- A justified line no wider than its column: what the two passes give out with the loose leftover fills the column,
every gap stays between its natural and its greatest size, and there is a leftover only when every gap is at its
greatest. A line wider than its column shrinks its gaps toward their least sizes, down to the column and no further
(R71, R72, R73). -/
def Obligations.JustifiedLineFillsColumn : Prop :=
  (∀ (width natural : Nat) (gaps : List Gap) (ending : Ending) (d : LineWidths), 1 ≤ gaps.length → natural ≤ width →
    ending = .fit ∨ ending = .hyphen ∨ ending = .split → (∀ g ∈ gaps, g.natural ≤ g.max) →
    d = distributeLine width natural gaps .justify ending →
      d.final + d.loose = width ∧ d.gaps.length = gaps.length
      ∧ natural + d.gaps.sum = d.final + (gaps.map (·.natural)).sum
      ∧ (∀ (i : Nat) (g : Gap) (x : Nat), gaps[i]? = some g → d.gaps[i]? = some x → g.natural ≤ x ∧ x ≤ g.max)
      ∧ (0 < d.loose → d.gaps = gaps.map (·.max)))
    ∧ ∀ (width natural : Nat) (gaps : List Gap) (align : Align) (ending : Ending) (d : LineWidths), 1 ≤ gaps.length →
      width < natural → (∀ g ∈ gaps, g.min ≤ g.natural) → (gaps.map (·.natural)).sum ≤ natural →
      d = distributeLine width natural gaps align ending →
        d.loose = 0 ∧ d.gaps.length = gaps.length
        ∧ natural = d.final + (gaps.map (·.natural)).sum - d.gaps.sum
        ∧ d.final = max width (natural - (gaps.map (fun g => g.natural - g.min)).sum)
        ∧ ∀ (i : Nat) (g : Gap) (x : Nat), gaps[i]? = some g → d.gaps[i]? = some x → g.min ≤ x ∧ x ≤ g.natural

/-- GLYPH_SPAN_DRAWN draws the next span's entries into W. When spans are left and nothing stops the job it goes on to
the next span; after the last one the line record is appended and the position advances; at a boundary with a retint
job waiting the job is SUSPENDED, and one with an abort recorded ends ABORTED: its record is released, the path is free and
COMPOSE_ABORTED tells the lines recorded and where to resume (R48, R51, R55, R77, R109). -/
def Obligations.SpanDrawnThenBoundary : Prop :=
  ∀ (s : State) (j : Job) (f : FrameRec) (w : WorkingLine) (k : Nat), s.comp.started = some j → j.running = true →
    j.phase = .drawing w k → 1 ≤ j.spanLength → k * j.spanLength < w.entries.length →
    s.comp.frames[j.slot]? = some f →
      ∃ d : State,
        d = drawEntries j.spec.rect ((w.entries.drop (k * j.spanLength)).take j.spanLength) s
        ∧ d = { s with planes := d.planes, sched := d.sched }
        ∧ (j.abortAsked = true →
          ∃ c,
            exec .glyphSpanDrawn s
              = .next
                (post
                  (.composeAborted j.spec.tag .running f.lines.length ((f.lines.getLast?.map (·.stop)).getD j.spec.start)
                    (some ⟨j.slot, j.gen, j.overlapped, j.evicted⟩)) { d with comp := c })
            ∧ c.started = none ∧ c.path = .free ∧ c.jobs = s.comp.jobs
            ∧ frameAt c j.slot = FrameRec.vacant f.gen ∧ ∀ i, i ≠ j.slot → frameAt c i = frameAt s.comp i)
        ∧ (j.abortAsked = false → (∀ e ∈ s.comp.retints, e.run ≠ none) → (k + 1) * j.spanLength < w.entries.length →
          exec .glyphSpanDrawn s
            = .next
              { d with
                comp := { s.comp with started := some { j with phase := .drawing w (k + 1) } } })
        ∧ (j.abortAsked = false → (∃ e ∈ s.comp.retints, e.run = none) →
          exec .glyphSpanDrawn s
            = .next
              { d with
                comp :=
                  { s.comp with
                    started := some { j with phase := .drawing w (k + 1), running := false }, path := .free } })
        ∧ (j.abortAsked = false → (∀ e ∈ s.comp.retints, e.run ≠ none) → w.entries.length ≤ (k + 1) * j.spanLength →
            w.record.stop.run < j.limit → f.lines.length < 255 →
          exec .glyphSpanDrawn s
            = .next
              { d with
                comp :=
                  { s.comp with
                    started :=
                      some
                        { j with
                          stack := w.stack, current := w.record.stop, nextTop := w.nextTop, phase := .lines }
                    frames := s.comp.frames.set j.slot { f with lines := f.lines ++ [w.record] } } })

/-- A glyph entry drawn on W changes only pixels of its rectangle inside the clip region that its map covers: such a
pixel, when lighter than the ink, goes down by the covered part of the way to the ink, and every other pixel stays
(R105, R107, R108). -/
def Obligations.GlyphIsDrawnInsideClip : Prop :=
  ∀ (s : State) (e : DrawEntry) (g : GlyphRec) (clip : PRect) (x y c p : Nat), e.glyph = some g → PlaneWf s.planes.w →
    clip.x + clip.w ≤ 4096 → x < 4096 →
    c = g.coverage.getD (((y : Int) - e.row).toNat * e.width + ((x : Int) - e.col).toNat) 0 → p = pixelAt s.planes.w x y →
      ((clip.x ≤ x ∧ x < clip.x + clip.w ∧ clip.y ≤ y ∧ y < clip.y + clip.h ∧ e.col ≤ x ∧ (x : Int) < e.col + e.width
          ∧ e.row ≤ y ∧ (y : Int) < e.row + e.height) →
        pixelAt (drawEntry clip s e).planes.w x y = if c = 0 ∨ p ≤ e.ink then p else p - (p - e.ink) * c / 15)
      ∧ (¬(clip.x ≤ x ∧ x < clip.x + clip.w ∧ clip.y ≤ y ∧ y < clip.y + clip.h ∧ e.col ≤ x ∧ (x : Int) < e.col + e.width
          ∧ e.row ≤ y ∧ (y : Int) < e.row + e.height) →
        pixelAt (drawEntry clip s e).planes.w x y = p)

/-- OVERLAY_LINE_DONE with the snapshot taken: what is left of the line's overlay is drawn from it and the pass goes on;
after the last line, with nothing that stops the job, CLOSE makes the record LIVE at the tail of the live order, turns a late
range into a pending one with a waiting retint job, posts COMPOSE_DONE and frees the path. At the end of a line an abort
recorded ends the job ABORTED, and a waiting retint job suspends it (R48, R53, R55, R95, R96). That pieces of the line may
have been drawn one by one before is the model's choice of log entry 31. -/
def Obligations.OverlayThenClose : Prop :=
  ∀ (s : State) (j : Job) (f : FrameRec) (i : Nat) (line : LineRec) (notes : List Note), s.comp.started = some j →
    j.running = true → j.phase = .overlay i → s.comp.frames[j.slot]? = some f → f.lines[i]? = some line →
    f.snapshot = some notes →
      ∃ o : Overlaid,
        o = finishOverlayLine f line (j.work.getD (beginOverlayLine f line j.stack notes s)) s
        ∧ o.state = { s with planes := o.state.planes, sched := o.state.sched }
        ∧ (j.work = none → o = overlayLine f line j.stack notes s)
        ∧ (j.abortAsked = true →
          ∃ c,
            exec .overlayLineDone s
              = .next
                (post
                  (.composeAborted j.spec.tag .running f.lines.length ((f.lines.getLast?.map (·.stop)).getD j.spec.start)
                    (some ⟨j.slot, j.gen, j.overlapped, j.evicted⟩)) { o.state with comp := c })
            ∧ c.started = none ∧ c.path = .free ∧ c.jobs = s.comp.jobs
            ∧ frameAt c j.slot = FrameRec.vacant f.gen ∧ ∀ n, n ≠ j.slot → frameAt c n = frameAt s.comp n)
        ∧ (j.abortAsked = false → (∃ e ∈ s.comp.retints, e.run = none) →
          exec .overlayLineDone s
            = .next
              { o.state with
                comp :=
                  { s.comp with
                    started :=
                      some
                        { j with
                          missing := j.missing + o.missing, suppressed := j.suppressed + o.suppressed
                          phase := .overlay (i + 1), work := none, running := false }
                    path := .free } })
        ∧ (j.abortAsked = false → (∀ e ∈ s.comp.retints, e.run ≠ none) → i + 1 < f.lines.length →
          exec .overlayLineDone s
            = .next
              { o.state with
                comp :=
                  { s.comp with
                    started :=
                      some
                        { j with
                          missing := j.missing + o.missing, suppressed := j.suppressed + o.suppressed
                          phase := .overlay (i + 1), work := none } } })
        ∧ (j.abortAsked = false → (∀ e ∈ s.comp.retints, e.run ≠ none) → i + 1 = f.lines.length →
          exec .overlayLineDone s
            = .next
              (post
                (.composeDone j.spec.tag j.slot j.gen j.stop f.lines.length (f.lines.filter (·.loose)).length
                  (f.lines.filter (·.overfull)).length (f.lines.filter (·.hyphenated)).length
                  (min (j.missing + o.missing) 65535) (min j.stack.ignored 65535) j.overlapped j.evicted
                  (min (j.suppressed + o.suppressed) 65535))
                { o.state with
                  comp :=
                    { s.comp with
                      started := none
                      path := .free
                      liveOrder := s.comp.liveOrder ++ [j.slot]
                      frames :=
                        s.comp.frames.set j.slot
                          { f with state := .live, stop := j.stop, retint := f.late, late := none, snapshot := none }
                      retints :=
                        if f.late = none then s.comp.retints else s.comp.retints ++ [⟨j.slot, j.gen, none⟩] } }))

/-- RETINT_LINE_REDRAWN draws what is left of the current line of the running retint job and goes on to the next; after the
last line of its range, or once its record is released, the job leaves the queue, the path is free, RETINT_DONE is posted,
and a pending range left on the record enqueues a new job. Before it, PAGE_PAPER_FILL may fill the line's band inside the
record's area with paper as one operation, and GLYPH_SPAN_DRAWN draw its spans one by one; with no span left the line's
overlay begins, from the notes as they stand (R97 to R100, R106, R109, R113). That those two commands serve a retint too is the
model's choice of log entry 31; that the rest of a line is one command, that a released run redraws its current line from
its copy, and that the released flag stands also on the last line are its deductions of log entries 9 and 18. -/
def Obligations.RetintRedrawsLine : Prop :=
  ∀ (s : State) (before after : List RetintEntry) (slot gen : Nat) (run : RetintRun) (line : LineRec),
    s.comp.path = .retintJob → s.comp.retints = before ++ ⟨slot, gen, some run⟩ :: after →
    (∀ e ∈ before, e.run = none) → (∀ e ∈ after, e.run = none) → run.frame.lines[run.current]? = some line →
      (∃ o : Overlaid,
        o = redrawLine run line s
        ∧ o.state = { s with planes := o.state.planes, sched := o.state.sched }
        ∧ (run.released = false → run.current < run.hi →
          exec .retintLineRedrawn s
            = .next
              { o.state with
                comp :=
                  { s.comp with
                    retints :=
                      before
                        ++ ⟨slot, gen,
                            some
                              { run with
                                current := run.current + 1, stage := .paper, redrawn := run.redrawn + 1
                                suppressed := run.suppressed + o.suppressed }⟩ :: after } })
        ∧ (run.released = true ∨ run.hi ≤ run.current →
          exec .retintLineRedrawn s
            = .next
              (post
                (.retintDone slot gen run.lo run.hi (run.redrawn + 1) (min (run.suppressed + o.suppressed) 65535)
                  run.released)
                { o.state with
                  comp :=
                    { s.comp with
                      path := .free
                      retints :=
                        if run.released = true ∨ (frameAt s.comp slot).retint = none then before ++ after
                        else before ++ after ++ [⟨slot, gen, none⟩] } })))
      ∧ ((∀ j, s.comp.started = some j → j.running = false) →
        (run.stage = .paper →
          ∃ (d : State) (stage : RetintStage),
            exec .pagePaperFill s
              = .next
                { d with
                  comp := { s.comp with retints := before ++ ⟨slot, gen, some { run with stage := stage }⟩ :: after } }
            ∧ d = { s with planes := d.planes, sched := d.sched }
            ∧ (retintEntries run line d ≠ [] → 1 ≤ run.spanLength → stage = .glyphs (retintEntries run line d) 0)
            ∧ (retintEntries run line d = [] → 1 ≤ run.spanLength → stage = .overlay (beginRetintOverlay run line d))
            ∧ (PlaneWf s.planes.w → panelWidth s ≤ 4096 →
              ∀ (a : PRect) (x y : Nat), x < 4096 →
                a = areaOf (panelRect s) run.frame.rect run.frame.marginLeft run.frame.marginRight →
                pixelAt d.planes.w x y
                  = if a.x ≤ x ∧ x < a.x + a.w ∧ a.y ≤ y ∧ y < a.y + a.h ∧ run.frame.rect.y + line.top ≤ y
                      ∧ y < run.frame.rect.y + line.top + line.height then run.paper
                    else pixelAt s.planes.w x y))
        ∧ ∀ (entries : List DrawEntry) (k : Nat), run.stage = .glyphs entries k → 1 ≤ run.spanLength →
            k * run.spanLength < entries.length →
          ∃ d : State,
            d = drawEntries run.frame.rect ((entries.drop (k * run.spanLength)).take run.spanLength) s
            ∧ d = { s with planes := d.planes, sched := d.sched }
            ∧ exec .glyphSpanDrawn s
              = .next
                { d with
                  comp :=
                    { s.comp with
                      retints :=
                        before
                          ++ ⟨slot, gen,
                              some
                                { run with
                                  stage :=
                                    if (k + 1) * run.spanLength < entries.length then .glyphs entries (k + 1)
                                    else .overlay (beginRetintOverlay run line d) }⟩ :: after } })

/-- The drawing commands write W alone: T and G stay, and of the tile records only work-dirty may change, from clear
to set (R104, R111). The law of lightening: over a step that stays in ACTIVE and is neither a page paper fill nor has a
retint line's band fill before it, no pixel of W becomes lighter (R112). -/
def Obligations.DrawingTouchesOnlyW : Prop :=
  (∀ (c : Instr) (s t : State),
    c = .pagePaperFill ∨ c = .lineSet ∨ c = .glyphSpanDrawn ∨ c = .overlayLineDone ∨ c = .retintLineRedrawn →
    exec c s = .next t →
      t.planes.t = s.planes.t ∧ t.planes.g = s.planes.g ∧ t.sched.tiles.length = s.sched.tiles.length
      ∧ t.sched.queue = s.sched.queue ∧ t.lanes = s.lanes ∧ t.notes = s.notes ∧ t.flows = s.flows ∧ t.styles = s.styles
      ∧ t.store = s.store ∧ t.settings = s.settings ∧ t.link = s.link
      ∧ ∀ (i : Nat) (a : TileRec), s.sched.tiles[i]? = some a →
        t.sched.tiles[i]? = some a ∨ t.sched.tiles[i]? = some { a with workDirty := true })
    ∧ ∀ (s t : State) (x y : Nat), PlaneWf s.planes.w → x < 4096 → s.settings.power = .active →
      t.settings.power = .active → (∀ rest, s.pending ≠ .pagePaperFill :: rest) →
      (∀ e ∈ s.comp.retints, ∀ r, e.run = some r → r.stage ≠ .paper) → step s = .next t →
        pixelAt t.planes.w x y ≤ pixelAt s.planes.w x y

/-! ### Notes -/

/-- NOTE_ADD of a note in range stores it; NOTE_REMOVE takes a stored note out; NOTE_CHANGE (here of the ink) replaces
it; each then reaches the frame records of its flow by the old and new ranges. A taken id is EXISTS, a full table
FULL, an id of no note NOT_FOUND (R83, R84, R85, R93). -/
def Obligations.NoteRequestsChangeTable : Prop :=
  ∀ (s : State) (tag : Byte) (n : Note) (f : NoteFields), Ready s →
    f = ⟨some n.id, some n.flow, some n.start, some n.stop,
        some (match n.kind with | .fill a => .fill a | .underline t => .underline t | .box => .box),
        some n.ink, some (sideCode n.side), n.marginGlyph, n.marginStyle, some n.marginText⟩ →
    1 ≤ n.id → n.id ≤ 65535 → n.flow ≤ 3 → posLt n.start n.stop = true →
    n.start.run ≤ 16384 → n.start.off ≤ 31 → n.stop.run ≤ 16384 → n.stop.off ≤ 31 → n.ink ≤ 15 →
    (∀ a, n.kind = .fill a → 1 ≤ a ∧ a ≤ 8) → (∀ t, n.kind = .underline t → 1 ≤ t ∧ t ≤ 4) →
    (∀ g, n.marginGlyph = some g → g ≤ 4095) → (∀ g, n.marginStyle = some g → g ≤ 31) →
    n.marginText.length ≤ 32 → (∀ g ∈ n.marginText, g ≤ 4095) →
      ((∀ m ∈ s.notes, m.id ≠ n.id) →
        (s.notes.length < 128 →
          ∃ c k,
            exec (.noteAdd tag f) s
              = .next (replied tag 0x38#8 .ok (.reached k) { s with notes := s.notes ++ [n], comp := c })
            ∧ (c, k) = reachFrames n.flow none (some (n.start, n.stop)) s.comp)
        ∧ (128 ≤ s.notes.length → exec (.noteAdd tag f) s = .next (replied tag 0x38#8 .full .none s))
        ∧ exec (.noteRemove tag n.id) s = .next (replied tag 0x3A#8 .notFound .none s))
      ∧ (∀ before after, s.notes = before ++ n :: after → (∀ m ∈ before, m.id ≠ n.id) → (∀ m ∈ after, m.id ≠ n.id) →
        exec (.noteAdd tag f) s = .next (replied tag 0x38#8 .exists_ .none s)
        ∧ (∃ c k,
            exec (.noteRemove tag n.id) s
              = .next (replied tag 0x3A#8 .ok (.reached k) { s with notes := before ++ after, comp := c })
            ∧ (c, k) = reachFrames n.flow (some (n.start, n.stop)) none s.comp)
        ∧ ∀ ink, ink ≤ 15 →
          ∃ c k,
            exec (.noteChange tag n.id ⟨none, none, none, none, some ink, none, .keep, .keep, none⟩) s
              = .next
                (replied tag 0x39#8 .ok (.noteChanged { n with ink := ink } k)
                  { s with notes := before ++ { n with ink := ink } :: after, comp := c })
            ∧ (c, k) = reachFrames n.flow (some (n.start, n.stop)) (some (n.start, n.stop)) s.comp)

/-- How a note request reaches one frame record. The reached lines are those whose ranges meet the old or the new one. A
record it does not reach stays; a LIVE one without a running retint job gathers them into its pending range, from the least
to the greatest of them and of the range there was, and gets a waiting job if it has none; under a running job only the lines
not left to the job are gathered, where a line is left to it from the current line on, the current one until its overlay has
begun, and no job is enqueued; an OPEN one with its snapshot taken gathers them into its late range (R93, R94, R96). -/
def Obligations.NoteReachesFrame : Prop :=
  ∀ (c : Composition) (flow slot : Nat) (f : FrameRec) (old new : Option (Pos × Pos)),
    c.frames[slot]? = some f →
    (∀ i, i ∈ reachedLines f old new ↔
      ∃ l ∈ f.lines, l.index = i
        ∧ ∃ r, (old = some r ∨ new = some r) ∧ posLt l.start r.2 = true ∧ posLt r.1 l.stop = true)
    ∧ (f.state = .free ∨ f.flow ≠ flow ∨ reachedLines f old new = [] ∨ (f.state = .opened ∧ f.snapshot = none) →
      reachFrame flow old new slot c = (c, false))
    ∧ (f.flow = flow → reachedLines f old new ≠ [] →
      (f.state = .live → (∀ e ∈ c.retints, e.slot = slot → e.gen = f.gen → e.run = none) →
        ∃ c' range,
          reachFrame flow old new slot c = (c', true)
          ∧ frameAt c' slot = { f with retint := range }
          ∧ Gathered f.retint (reachedLines f old new) range
          ∧ (∀ i, i ≠ slot → frameAt c' i = frameAt c i)
          ∧ c'.retints
            = (if ∃ e ∈ c.retints, e.slot = slot ∧ e.gen = f.gen then c.retints
                else c.retints ++ [⟨slot, f.gen, none⟩]))
      ∧ (∀ (r : RetintRun) (left : Nat → Bool), f.state = .live → ⟨slot, f.gen, some r⟩ ∈ c.retints →
          (∀ e ∈ c.retints, e.slot = slot → e.gen = f.gen → e.run = none ∨ e.run = some r) →
          (∀ i, left i = true ↔ r.current ≤ i ∧ i ≤ r.hi ∧ (i = r.current → ∀ w, r.stage ≠ .overlay w)) →
        ∃ c' range,
          reachFrame flow old new slot c = (c', true)
          ∧ frameAt c' slot = { f with retint := range }
          ∧ Gathered f.retint ((reachedLines f old new).filter (fun i => !left i)) range
          ∧ (∀ i, i ≠ slot → frameAt c' i = frameAt c i)
          ∧ c'.retints = c.retints)
      ∧ (f.state = .opened → f.snapshot ≠ none →
        ∃ c' range,
          reachFrame flow old new slot c = (c', true)
          ∧ frameAt c' slot = { f with late := range }
          ∧ Gathered f.late (reachedLines f old new) range
          ∧ (∀ i, i ≠ slot → frameAt c' i = frameAt c i)
          ∧ c'.retints = c.retints))

/-- NOTE_LIST returns at most eight notes with ids above the given one, in rising id order, none skipped, with the
count of all notes and whether more follow; it changes nothing (R86). -/
def Obligations.NoteListPages : Prop :=
  ∀ (s : State) (tag : Byte) (after : Nat), Ready s → (s.notes.map (·.id)).Nodup →
    ∃ l more,
      exec (.noteList tag after) s = .next (replied tag 0x3B#8 .ok (.noteList s.notes.length l more) s)
      ∧ l.length ≤ 8 ∧ (l.map (·.id)).Pairwise (· < ·) ∧ (∀ n ∈ l, n ∈ s.notes ∧ after < n.id)
      ∧ (more = false → ∀ n ∈ s.notes, after < n.id → n ∈ l)
      ∧ (more = true → l.length = 8 ∧ ∀ n ∈ s.notes, after < n.id → n ∉ l → ∀ m ∈ l, m.id < n.id)

/-! ### Commits and updates -/

/-- COMMIT and REFRESH: outside ACTIVE, with an unknown code, or with a rectangle upside down or outside the tile
table they are refused; an accepted COMMIT makes the slot PENDING with the clipped rectangle, and a slot in use
refuses it BUSY; an accepted REFRESH queues an update over its rectangle or over the bound of the target-newer tiles,
or answers id 0 when there is none (R116, R121). -/
def Obligations.CommitAndRefreshAccepted : Prop :=
  (∀ (s : State) (tag : Byte) (mode cls : Nat) (rect : Option TileRect) (e : Status),
    (Ready s ∧ s.settings.power = .standby ∧ e = .notActive)
        ∨ (ReadyActive s ∧ (2 < mode ∨ 1 < cls) ∧ e = .malformed)
        ∨ (ReadyActive s ∧ mode ≤ 2 ∧ cls ≤ 1 ∧ e = .badArgument
          ∧ ∃ q, rect = some q
            ∧ (q.col1 < q.col0 ∨ q.row1 < q.row0 ∨ panelWidth s / 64 ≤ q.col0 ∨ panelHeight s / 64 ≤ q.row0)) →
      exec (.commit tag mode cls rect) s = .next (replied tag 0x40#8 e .none s)
      ∧ exec (.refresh tag mode cls rect) s = .next (replied tag 0x41#8 e .none s))
    ∧ ∀ (s : State) (tag : Byte) (mode : Mode) (cls : UpdateClass) (rect : Option TileRect) (r : TileRect), ReadyActive s →
    (∀ q, rect = some q →
      q.col0 ≤ q.col1 ∧ q.row0 ≤ q.row1 ∧ q.col0 < panelWidth s / 64 ∧ q.row0 < panelHeight s / 64
        ∧ r = ⟨q.col0, min q.col1 (panelWidth s / 64 - 1), q.row0, min q.row1 (panelHeight s / 64 - 1)⟩) →
    (rect = none → r = ⟨0, panelWidth s / 64 - 1, 0, panelHeight s / 64 - 1⟩) →
      (s.comp.commit = .empty →
        exec (.commit tag (modeCode mode) (classCode cls) rect) s
          = .next
            (replied tag 0x40#8 .ok (.tileRect r) { s with comp := { s.comp with commit := .pending ⟨mode, cls, r⟩ } }))
      ∧ (s.comp.commit ≠ .empty →
        exec (.commit tag (modeCode mode) (classCode cls) rect) s = .next (replied tag 0x40#8 .busy .none s))
      ∧ (rect ≠ none →
        exec (.refresh tag (modeCode mode) (classCode cls) rect) s
          = .next
            (replied tag 0x41#8 .ok (.refreshed (some r) (queueUpdate ⟨r, mode, cls, .refresh⟩ s.sched).2)
              { s with sched := (queueUpdate ⟨r, mode, cls, .refresh⟩ s.sched).1 }))
      ∧ (rect = none → (∀ t ∈ s.sched.tiles, t.targetNewer = false) →
        exec (.refresh tag (modeCode mode) (classCode cls) rect) s
          = .next (replied tag 0x41#8 .ok (.refreshed none 0) s))
      ∧ (∀ b, rect = none →
        boundTiles (tileCols s) ((List.range s.sched.tiles.length).filter
          (fun i => (s.sched.tiles.getD i TileRec.fresh).targetNewer)) = some b →
        exec (.refresh tag (modeCode mode) (classCode cls) rect) s
          = .next
            (replied tag 0x41#8 .ok (.refreshed (some b) (queueUpdate ⟨b, mode, cls, .refresh⟩ s.sched).2)
              { s with sched := (queueUpdate ⟨b, mode, cls, .refresh⟩ s.sched).1 }))

/-- Queueing an update: the newest record that overlaps or adjoins it takes it when mode and class agree; otherwise it
is appended with the next id while the queue has room, and else merged into the newest record, with the stronger mode
(R123, R124). -/
def Obligations.UpdateIsQueued : Prop :=
  ∀ (u : NewUpdate) (c : Scheduler) (before after : List UpdateRec) (q : UpdateRec),
    (∀ x ∈ after, tilesOverlap x.rect u.rect = false ∧ tilesAdjoin x.rect u.rect = false) →
      (c.queue = before ++ q :: after → tilesOverlap q.rect u.rect = true ∨ tilesAdjoin q.rect u.rect = true →
        q.mode = u.mode → q.cls = u.cls →
          queueUpdate u c
            = ({ c with
                queue :=
                  before ++ { q with rect := tilesBound q.rect u.rect, merged := min (q.merged + 1) 255 } :: after },
              q.id))
      ∧ ((c.queue = after
          ∨ (c.queue = before ++ q :: after ∧ (tilesOverlap q.rect u.rect = true ∨ tilesAdjoin q.rect u.rect = true)
            ∧ (q.mode ≠ u.mode ∨ q.cls ≠ u.cls))) →
        (c.queue.length < 24 →
          queueUpdate u c
            = ({ c with
                queue := c.queue ++ [⟨c.nextId, u.rect, u.mode, u.cls, u.origin, 1⟩]
                nextId := if 65535 ≤ c.nextId then 1 else c.nextId + 1 },
              c.nextId))
        ∧ ∀ front n, c.queue = front ++ [n] → 24 ≤ c.queue.length →
          ∃ m : UpdateRec,
            queueUpdate u c = ({ c with queue := front ++ [m] }, n.id)
            ∧ m.id = n.id ∧ m.origin = n.origin ∧ m.rect = tilesBound n.rect u.rect
            ∧ m.merged = min (n.merged + 1) 255
            ∧ (m.mode = .clean ↔ n.mode = .clean ∨ u.mode = .clean)
            ∧ (m.mode = .swift ↔ n.mode = .swift ∧ u.mode = .swift)
            ∧ (m.cls = .prompt ↔ n.cls = .prompt ∨ u.cls = .prompt))

/-- QUEUE_INFO reports the queue with each record's eligibility, the lanes, the timer and the tile counts, and changes
nothing (R126, R132). That the elapsed time in seconds is the floor of its milliseconds is the model's deduction of log entry
19. -/
def Obligations.QueueInfoReports : Prop :=
  ∀ (s : State) (tag : Byte), Ready s →
    ∃ i : QueueInfo,
      exec (.queueInfo tag) s = .next (replied tag 0x42#8 .ok (.queue i) s)
      ∧ i.records.map Prod.fst = s.sched.queue
      ∧ (∀ (k : Nat) (q : UpdateRec) (e : Bool), i.records[k]? = some (q, e) →
          (e = true ↔
            (∀ (n : Nat) (t : TileRec), s.sched.tiles[n]? = some t →
              inTileRect q.rect (n % tileCols s) (n / tileCols s) = true → t.state = .idle)
            ∧ ∀ o ∈ s.sched.queue.take k, tilesOverlap o.rect q.rect = false))
      ∧ i.nextId = s.sched.nextId
      ∧ i.lanes = s.lanes.lanes.map (fun x => match x with | .free => none | .driving d => some (d.id, d.rect))
      ∧ i.policy = applied s 7 ∧ i.driveHold = s.pins.driveHold ∧ i.deghostInterval = applied s 9
      ∧ i.deghostSeconds = s.sched.deghostMs / 1000 ∧ i.commit = commitState s.comp.commit
      ∧ i.flight = (s.sched.tiles.filter (fun t => t.state == .flight)).length
      ∧ i.flightStale = (s.sched.tiles.filter (fun t => t.state == .flightStale)).length
      ∧ i.workDirty = (s.sched.tiles.filter (·.workDirty)).length
      ∧ i.targetNewer = (s.sched.tiles.filter (·.targetNewer)).length
      ∧ i.glassUnknown = (s.sched.tiles.filter (fun t => !t.glassKnown)).length
      ∧ i.inked = (s.sched.tiles.filter (fun t => decide (0 < t.inkAge))).length

/-- LATCH_TILE acts on the next work-dirty tile of the commit's rectangle in row order: an IDLE one is copied from W
to T, one in flight is deferred with the stronger mode and stays work-dirty. While another follows, the latch goes on;
after the last, the slot is EMPTY, the path is free and COMMIT_DONE is posted (R117, R118). -/
def Obligations.LatchActsOnTile : Prop :=
  ∀ (s : State) (c : CommitSpec) (next i : Nat) (copied : List Nat) (deferred : Nat) (a : TileRec),
    s.comp.commit = .latching c next copied deferred → next ≤ i → s.sched.tiles[i]? = some a → a.workDirty = true →
    inTileRect c.rect (i % tileCols s) (i / tileCols s) = true →
    (∀ (k : Nat) (b : TileRec), next ≤ k → k < i → s.sched.tiles[k]? = some b →
      inTileRect c.rect (k % tileCols s) (k / tileCols s) = true → b.workDirty = false) →
      ∃ (b : TileRec) (p : Planes) (l : List Nat) (n : Nat),
        (a.state = .idle →
          b = { a with workDirty := false, targetNewer := true } ∧ l = copied ++ [i] ∧ n = deferred
            ∧ p = { s.planes with
                t := planeCopy (tilePixels (i % tileCols s) (i / tileCols s)) id s.planes.w s.planes.t })
        ∧ (a.state ≠ .idle →
          b = { a with
              state := .flightStale, deferredMode := some (strongerOpt a.deferredMode c.mode)
              deferredPrompt := a.deferredPrompt || c.cls == .prompt }
            ∧ l = copied ∧ n = deferred + 1 ∧ p = s.planes)
        ∧ ((∃ (k : Nat) (x : TileRec), i < k ∧ s.sched.tiles[k]? = some x ∧ x.workDirty = true
              ∧ inTileRect c.rect (k % tileCols s) (k / tileCols s) = true) →
          exec .latchTile s
            = .next
              { s with
                planes := p
                sched := { s.sched with tiles := s.sched.tiles.set i b }
                comp := { s.comp with commit := .latching c (i + 1) l n } })
        ∧ ((∀ (k : Nat) (x : TileRec), i < k → s.sched.tiles[k]? = some x →
              inTileRect c.rect (k % tileCols s) (k / tileCols s) = true → x.workDirty = false) →
          ∃ sched id,
            exec .latchTile s
              = .next
                (post (.commitDone c.mode c.cls c.rect l.length n id)
                  { s with planes := p, sched := sched, comp := { s.comp with commit := .empty, path := .free } })
            ∧ sched.tiles = s.sched.tiles.set i b
            ∧ ((l = [] ∨ applied s 7 ≠ 0) → id = 0 ∧ sched.queue = s.sched.queue)
            ∧ (∀ r, boundTiles (tileCols s) l = some r → applied s 7 = 0 →
                (sched, id)
                  = queueUpdate ⟨r, c.mode, c.cls, .commit⟩ { s.sched with tiles := s.sched.tiles.set i b }))

/-! ### Lanes -/

/-- PANEL_FRAME_BOUNDARY in STANDBY or ACTIVE raises the 32-bit frame count by one and, in ACTIVE with DRIVE_HOLD
released, calls for a dispatch scan; in STARTING there is none. LANE_FRAME takes one frame that a DRIVING lane owes to
a boundary (R125, R129, R134, R135); that a lane counts the boundaries it owes a frame to is the model's choice of log
entry 7. That a command whose condition does not hold leaves the state as it is, is the model's choice of log entry 1.
-/
def Obligations.BoundariesAndFrames : Prop :=
  ∀ (s : State),
    (s.settings.power = .starting → exec .panelFrameBoundary s = .next s)
    ∧ (s.settings.power ≠ .starting →
      ∃ lanes,
        exec .panelFrameBoundary s
          = .next
            { s with
              lanes :=
                { s.lanes with
                  lanes := lanes
                  frameCount := if s.lanes.frameCount = 4294967295 then 0 else (s.lanes.frameCount + 1) % 4294967296
                  boundaryMs := 0
                  scanDue := decide (s.settings.power = .active ∧ s.pins.driveHold = false) } }
        ∧ lanes.length = s.lanes.lanes.length
        ∧ ∀ l : Nat, (s.lanes.lanes[l]? = some .free → lanes[l]? = some .free)
          ∧ ∀ d, s.lanes.lanes[l]? = some (.driving d) →
            lanes[l]? = some (.driving { d with framesDue := d.framesDue + 1 }))
    ∧ ∀ (l : Nat) (d : Drive), s.lanes.lanes[l]? = some (.driving d) →
      (0 < d.framesDue → 0 < d.framesLeft →
        exec (.laneFrame l) s
          = .next
            { s with
              lanes :=
                { s.lanes with
                  lanes :=
                    s.lanes.lanes.set l
                      (.driving { d with framesDue := d.framesDue - 1, framesLeft := d.framesLeft - 1 }) } })
      ∧ (d.framesDue = 0 ∨ d.framesLeft = 0 → exec (.laneFrame l) s = .next s)

/-- DISPATCH_SCAN applies the pending ghost limit unless hold keeps it and visits lanes 0 to 7 in order. A FREE lane takes the
first PROMPT record eligible as the scan reaches it, else the first eligible one: the record leaves the queue, its tiles
become FLIGHT with the lane's number and target-newer clear, and the lane is loaded with the record's fields, the mode
settled for it, the band and its frames. A lane that drives, or for which no record is eligible, stays (R125, R126, R127,
R133, R140). That the scan a boundary calls for is an event of its own is the model's deduction of log entry 7; that a command
whose condition does not hold leaves the state as it is, that of log entry 1. -/
def Obligations.ScanLoadsFreeLane : Prop :=
  (∀ (s : State),
    (s.settings.power ≠ .active ∨ s.lanes.scanDue = false → exec .dispatchScan s = .next s)
    ∧ (s.settings.power = .active → s.lanes.scanDue = true → s.lanes.lanes.length = 8 →
      ∃ u : Nat → State,
        u 0
          = { s with
              settings := applyBoundary .dispatchBoundary s.settings, lanes := { s.lanes with scanDue := false } }
        ∧ exec .dispatchScan s = .next (u 8)
        ∧ ∀ l, l < 8 →
          ((u l).lanes.lanes[l]? ≠ some .free ∨ (∀ k, eligible (u l) k = false) → u (l + 1) = u l)
          ∧ ∀ (k : Nat) (q : UpdateRec) (m : Settled) (b : Band) (d : Drive), (u l).lanes.lanes[l]? = some .free →
            (u l).sched.queue[k]? = some q → eligible (u l) k = true →
            (∀ n p, (u l).sched.queue[n]? = some p → eligible (u l) n = true → n < k →
              q.cls = .prompt ∧ p.cls = .normal) →
            (∀ n p, (u l).sched.queue[n]? = some p → eligible (u l) n = true → k < n → q.cls = .normal →
              p.cls = .normal) →
            m = settleRecord (u l) q → b = bandOf s.lanes.temperature →
            d = { id := q.id, rect := q.rect, requested := q.mode, driven := m.mode, cls := q.cls, origin := q.origin
                  merged := q.merged, escalated := m.escalated, degraded := m.degraded, band := b
                  frames := frameTable m.mode b, framesLeft := frameTable m.mode b, framesDue := 0 } →
            ∃ tiles,
              u (l + 1)
                = { u l with
                    sched :=
                      { (u l).sched with
                        queue := (u l).sched.queue.take k ++ (u l).sched.queue.drop (k + 1), tiles := tiles }
                    lanes := { (u l).lanes with lanes := (u l).lanes.lanes.set l (.driving d) } }
              ∧ tiles.length = s.sched.tiles.length
              ∧ ∀ (i : Nat) (a : TileRec), (u l).sched.tiles[i]? = some a →
                tiles[i]?
                  = if inTileRect q.rect (i % tileCols s) (i / tileCols s) = true then
                      some { a with state := .flight, lane := some l, targetNewer := false }
                    else some a))
    ∧ ∀ (s : State) (k : Nat),
      eligible s k = true ↔
        ∃ q, s.sched.queue[k]? = some q
          ∧ (∀ (n : Nat) (t : TileRec), s.sched.tiles[n]? = some t →
            inTileRect q.rect (n % tileCols s) (n / tileCols s) = true → t.state = .idle)
          ∧ ∀ o ∈ s.sched.queue.take k, tilesOverlap o.rect q.rect = false

/-- The settling of a mode by the tiles of the record's rectangle, the record's class and the stale state, and the
frame table (R139, R140). -/
def Obligations.ModeIsSettledWithItsFrames : Prop :=
  (∀ (s : State) (q : UpdateRec) (unknown worn : Bool),
    (unknown = true ↔ ∃ (i : Nat) (t : TileRec), s.sched.tiles[i]? = some t ∧ t.glassKnown = false
      ∧ inTileRect q.rect (i % tileCols s) (i / tileCols s) = true) →
    (worn = true ↔ ∃ (i : Nat) (t : TileRec), s.sched.tiles[i]? = some t ∧ applied s 6 ≤ t.inkAge
      ∧ inTileRect q.rect (i % tileCols s) (i / tileCols s) = true) →
      (q.mode = .clean → settleRecord s q = ⟨.clean, false, false⟩)
      ∧ (q.mode ≠ .clean → unknown = true → settleRecord s q = ⟨.clean, true, false⟩)
      ∧ (q.mode ≠ .clean → unknown = false → worn = true → q.cls = .normal → settleRecord s q = ⟨.clean, true, false⟩)
      ∧ (unknown = false → worn = false ∨ q.cls = .prompt →
        (q.mode = .swift → s.lanes.stale = true → settleRecord s q = ⟨.text, false, true⟩)
        ∧ (q.mode = .swift → s.lanes.stale = false → settleRecord s q = ⟨.swift, false, false⟩)
        ∧ (q.mode = .text → settleRecord s q = ⟨.text, false, false⟩)))
    ∧ [Band.b0, .b1, .b2, .b3, .b4].map (frameTable .clean) = [60, 52, 44, 40, 36]
    ∧ [Band.b0, .b1, .b2, .b3, .b4].map (frameTable .text) = [30, 26, 22, 20, 18]
    ∧ [Band.b0, .b1, .b2, .b3, .b4].map (frameTable .swift) = [10, 8, 6, 6, 5]

/-- UPDATE_COMPLETION of a lane without frames left: the lane is FREE, UPDATE_DONE is posted, and every tile with the
lane's number is IDLE. The FLIGHT_STALE ones of these are copied from W to T and gain target-newer, and T is elsewhere as it
was; ink age and glass-known follow the mode driven over the lane's rectangle; G takes there the levels T had, thresholded to
0 and 15 by SWIFT, and no other pixel of G changes. Under AUTO, whatever the mode driven, the stale tiles are queued as one
FOLLOW_UP of the strongest of their deferred modes, PROMPT when one was deferred so; then, after SWIFT with setting 8 at 1,
the tiles of the rectangle in which T holds a mid-tone as one REFINE in TEXT and NORMAL. A lane that is FREE or has frames
left does nothing (R135, R141 to R146). That a command whose condition does not hold leaves the state as it is, is the
model's choice of log entry 1. -/
def Obligations.CompletionLandsLane : Prop :=
  (∀ (s : State) (l : Nat),
    ((s.lanes.lanes[l]? = none ∨ s.lanes.lanes[l]? = some .free
        ∨ ∃ d, s.lanes.lanes[l]? = some (.driving d) ∧ 0 < d.framesLeft) → exec (.updateCompletion l) s = .next s)
    ∧ ∀ (d : Drive) (stale : Nat → Bool), s.lanes.lanes[l]? = some (.driving d) → d.framesLeft = 0 →
      (∀ i, stale i = true ↔ ∃ a, s.sched.tiles[i]? = some a ∧ a.lane = some l ∧ a.state = .flightStale) →
      ∃ (t : State) (f r : Scheduler × Nat),
        exec (.updateCompletion l) s
          = .next
            (post
              (.updateDone d.id d.rect d.requested d.driven d.cls d.origin d.merged d.escalated d.degraded d.band d.frames
                ((List.range s.sched.tiles.length).filter stale).length f.2 r.2) t)
        ∧ t = { s with planes := t.planes, sched := r.1, lanes := { s.lanes with lanes := s.lanes.lanes.set l .free } }
        ∧ t.planes.w = s.planes.w ∧ t.sched.tiles.length = s.sched.tiles.length
        ∧ ((applied s 7 ≠ 0 ∨ ∀ i, stale i = false) → f = ({ s.sched with tiles := t.sched.tiles }, 0))
        ∧ (∀ b, applied s 7 = 0 →
            boundTiles (tileCols s) ((List.range s.sched.tiles.length).filter stale) = some b →
            ∃ (m : Mode) (c : UpdateClass),
              f = queueUpdate ⟨b, m, c, .followUp⟩ { s.sched with tiles := t.sched.tiles }
              ∧ ((∃ i a, stale i = true ∧ s.sched.tiles[i]? = some a ∧ a.deferredMode ≠ none) →
                (∃ i a, stale i = true ∧ s.sched.tiles[i]? = some a ∧ a.deferredMode = some m)
                ∧ ∀ i a n, stale i = true → s.sched.tiles[i]? = some a → a.deferredMode = some n → stronger n m = m)
              ∧ (c = .prompt ↔ ∃ i a, stale i = true ∧ s.sched.tiles[i]? = some a ∧ a.deferredPrompt = true))
        ∧ (d.driven ≠ .swift ∨ applied s 7 ≠ 0 ∨ applied s 8 ≠ 1 → r = (f.1, 0))
        ∧ (∀ mid : Nat → Bool, PlaneWf s.planes.t → 0 < tileCols s → tileCols s ≤ 64 →
            (∀ i, mid i = true ↔
              inTileRect d.rect (i % tileCols s) (i / tileCols s) = true
                ∧ ∃ x y, x < 4096 ∧ x / 64 = i % tileCols s ∧ y / 64 = i / tileCols s
                  ∧ pixelAt t.planes.t x y ≠ 0 ∧ pixelAt t.planes.t x y ≠ 15) →
            d.driven = .swift → applied s 7 = 0 → applied s 8 = 1 →
            r = match boundTiles (tileCols s) ((List.range s.sched.tiles.length).filter mid) with
              | none => (f.1, 0)
              | some b => queueUpdate ⟨b, .text, .normal, .refine⟩ f.1)
        ∧ (∀ x y, PlaneWf s.planes.t → 0 < tileCols s → tileCols s ≤ 64 → x < 4096 →
            ((∃ i, stale i = true ∧ i % tileCols s = x / 64 ∧ i / tileCols s = y / 64) →
              pixelAt t.planes.t x y = pixelAt s.planes.w x y)
            ∧ ((∀ i, stale i = true → ¬(i % tileCols s = x / 64 ∧ i / tileCols s = y / 64)) →
              pixelAt t.planes.t x y = pixelAt s.planes.t x y))
        ∧ ∀ (i : Nat) (a : TileRec), s.sched.tiles[i]? = some a →
          ∃ b, t.sched.tiles[i]? = some b
            ∧ (a.lane = some l → b.state = .idle ∧ b.lane = none)
            ∧ (a.lane = some l → a.state = .flightStale →
                b.workDirty = false ∧ b.targetNewer = true ∧ b.deferredMode = none ∧ b.deferredPrompt = false)
            ∧ (a.lane = some l → a.state ≠ .flightStale →
                b.workDirty = a.workDirty ∧ b.targetNewer = a.targetNewer)
            ∧ (a.lane ≠ some l → b.state = a.state ∧ b.lane = a.lane ∧ b.workDirty = a.workDirty
                ∧ b.targetNewer = a.targetNewer ∧ b.deferredMode = a.deferredMode ∧ b.deferredPrompt = a.deferredPrompt)
            ∧ (inTileRect d.rect (i % tileCols s) (i / tileCols s) = false →
                b.inkAge = a.inkAge ∧ b.glassKnown = a.glassKnown)
            ∧ (inTileRect d.rect (i % tileCols s) (i / tileCols s) = true →
                (d.driven = .clean → b.inkAge = 0 ∧ b.glassKnown = true)
                ∧ (d.driven = .text → b.inkAge = min (a.inkAge + 1) 255 ∧ b.glassKnown = a.glassKnown)
                ∧ (d.driven = .swift → b.inkAge = min (a.inkAge + 2) 255 ∧ b.glassKnown = a.glassKnown)))
    ∧ ∀ (s t : State) (l : Nat) (d : Drive) (x y : Nat), s.lanes.lanes[l]? = some (.driving d) → d.framesLeft = 0 →
    PlaneWf s.planes.g → d.rect.col1 < 64 → x < 4096 → d.rect.col0 ≤ d.rect.col1 → d.rect.row0 ≤ d.rect.row1 →
    exec (.updateCompletion l) s = .next t →
      (inTileRect d.rect (x / 64) (y / 64) = true →
        pixelAt t.planes.g x y
          = if d.driven = .swift then (if pixelAt s.planes.t x y < 8 then 0 else 15) else pixelAt s.planes.t x y)
      ∧ (inTileRect d.rect (x / 64) (y / 64) = false → pixelAt t.planes.g x y = pixelAt s.planes.g x y)

/-- DEGHOST_EXPIRY in ACTIVE with an interval that the timer has reached queues, under AUTO, a CLEAN NORMAL update over the
bound of the worn tiles, and in every case restarts the timer; TEMPERATURE_STALE with the stale state clear and the timer at
600 s sets it, stops the timer and posts its one notice; a timer that a SET of the interval or a SET_TEMPERATURE taken first
has restarted does not expire (R130, R131, R138). That an expiry whose time has come waits for its command is the model's choice
of log entry 3. That a command whose condition does not hold leaves the state as it is, is the model's choice of log entry
1. -/
def Obligations.TimersExpire : Prop :=
  ∀ (s : State),
    (s.settings.power ≠ .active ∨ applied s 9 = 0 ∨ s.sched.deghostMs < applied s 9 * 60000 →
      exec .deghostExpiry s = .next s)
    ∧ (s.settings.power = .active → applied s 9 ≠ 0 → applied s 9 * 60000 ≤ s.sched.deghostMs →
      (applied s 7 ≠ 0 ∨ (∀ t ∈ s.sched.tiles, t.inkAge = 0) →
        exec .deghostExpiry s = .next { s with sched := { s.sched with deghostMs := 0 } })
      ∧ ∀ r, applied s 7 = 0 →
        boundTiles (tileCols s) ((List.range s.sched.tiles.length).filter
          (fun i => decide (0 < (s.sched.tiles.getD i TileRec.fresh).inkAge))) = some r →
        exec .deghostExpiry s
          = .next { s with sched := { (queueUpdate ⟨r, .clean, .normal, .deghost⟩ s.sched).1 with deghostMs := 0 } })
    ∧ (s.settings.power = .starting ∨ s.lanes.stale = true ∨ s.lanes.staleMs < 600000 →
      exec .temperatureStale s = .next s)
    ∧ (s.settings.power ≠ .starting → s.lanes.stale = false → 600000 ≤ s.lanes.staleMs →
      exec .temperatureStale s
        = .next
          (post (.temperatureStale s.lanes.temperature (bandOf s.lanes.temperature))
            { s with lanes := { s.lanes with stale := true, staleMs := 600000, staleStopped := true } }))

/-! ### Start-up -/

/-- STARTUP_SCAN_END in STARTING with the pin released: a font with a dropped mark or no end mark is erased, every
other one is READY or DAMAGED by its checksum with its lock mark, STARTED is posted, and the part is in STANDBY (R40,
R172). In any other state it does nothing. That a command whose condition does not hold leaves the state as it is, is
the model's choice of log entry 1; that the whole scan is one command and counts no font erased after a wipe, that of log entry
26; that the slots' cursor and used bytes are 0, that of log entry 27. -/
def Obligations.ScanEndsInStandby : Prop :=
  ∀ (s : State),
    (s.settings.power ≠ .starting ∨ s.pins.resetHeld = true → exec .startupScanEnd s = .next s)
    ∧ (s.settings.power = .starting → s.pins.resetHeld = false → s.store.nv.wipeMark = false →
      ∃ slots fonts ready damaged empty erased,
        exec .startupScanEnd s
          = .next
            { post
                (.started s.settings.cause ready damaged empty erased false s.store.nv.boundary s.lanes.temperature
                  s.lanes.stale) s with
              store := { s.store with slots := slots, nv := { s.store.nv with fonts := fonts } }
              settings := { s.settings with power := .standby }
              lanes := { s.lanes with boundaryMs := 0, staleMs := 0 } }
        ∧ slots.length = s.store.nv.fonts.length ∧ ready + damaged + empty = slots.length
        ∧ ready = (slots.filter (fun v => v.state == .ready)).length
        ∧ erased
          = (s.store.nv.fonts.filter (fun o => o.any (fun f => f.dropped || !f.endMark))).length
        ∧ damaged = (slots.filter (fun v => v.state == .damaged)).length
        ∧ (∀ i : Nat, s.store.nv.fonts[i]? = some none → slots[i]? = some FontSlot.vacant ∧ fonts[i]? = some none)
        ∧ ∀ (i : Nat) (f : NvFont), s.store.nv.fonts[i]? = some (some f) →
          (f.dropped = true ∨ f.endMark = false → slots[i]? = some FontSlot.vacant ∧ fonts[i]? = some none)
          ∧ (f.dropped = false → f.endMark = true →
            fonts[i]? = some (some f)
            ∧ slots[i]? = some
                ⟨if (if f.locked then checksumLocked f.header else checksumUnlocked f.glyphs) = f.checksum then .ready
                  else .damaged, f.locked, false, some f.header, 0, 0⟩))
    ∧ (s.settings.power = .starting → s.pins.resetHeld = false → s.store.nv.wipeMark = true →
      exec .startupScanEnd s
        = .next
          { post (.started s.settings.cause 0 0 16 0 true 0 s.lanes.temperature s.lanes.stale) s with
            store := { s.store with slots := List.replicate 16 FontSlot.vacant, nv := NvStore.delivered }
            settings := { s.settings with power := .standby }
            lanes := { s.lanes with boundaryMs := 0, staleMs := 0 } })

/-! ### What every step keeps -/

/-- No step lets the request queue, the reply places, the notice buffer, the update queue, the compose queue, the write
queue, the note table or the flow memory hold more than its places (R1, R29, R44, R81, R122, R152, R154, R157); nor the retint
queue, a line table or the live order, which fit the frame records (R45, R50, R52); nor the tile table (R114); note ids stay
pairwise distinct (R81), and an unfinished exchange within a byte and a reply (R147, R153). -/
def Obligations.BoundedKept : Prop :=
  (∀ s t : State, Bounded s → step s = .next t → Bounded t)
    ∧ (∀ s t : State, PathDiscipline s → RecordsWf s → step s = .next t → RecordsWf t)
    ∧ (∀ s t : State, SettingsInRange s → TilesWf s → step s = .next t → TilesWf t)
    ∧ (∀ s t : State, NotesWf s → step s = .next t → NotesWf t)
    ∧ ∀ s t : State, PortWf s → step s = .next t → PortWf t

/-- Every step keeps the planes in canonical form, which is the model's own representation of a plane (log entry 6: the
spec gives no format); and every level, with the paper level of every job at work, within 0..15 (R101, R106). -/
def Obligations.PlanesWfKept : Prop :=
  (∀ s t : State, PlanesWf s → step s = .next t → PlanesWf t)
    ∧ ∀ s t : State, SettingsInRange s → LevelsWf s → step s = .next t → LevelsWf t

/-- Every step keeps the raster path's discipline: its holder is the one claimant that runs (R47). -/
def Obligations.PathDisciplineKept : Prop := ∀ s t : State, PathDiscipline s → step s = .next t → PathDiscipline t

/-- Every step keeps tiles in flight and lanes matched: a tile is in flight exactly with the lane whose rectangle
holds it (R127, R133). -/
def Obligations.FlightDisciplineKept : Prop := ∀ s t : State, FlightDiscipline s → step s = .next t → FlightDiscipline t

/-- Every step keeps the settings within what a write can store, and LIVE settings without a pending value (R163,
R164). -/
def Obligations.SettingsInRangeKept : Prop := ∀ s t : State, SettingsInRange s → step s = .next t → SettingsInRange t

/-- While a tile is in flight before and after a step, none of its pixels in T changes (R115). -/
def Obligations.TargetStandsStillInFlight : Prop :=
  ∀ (s t : State) (i x y : Nat) (a b : TileRec), PlanesWf s → SettingsInRange s → step s = .next t →
    s.sched.tiles[i]? = some a → t.sched.tiles[i]? = some b → inFlight a = true → inFlight b = true →
    pixelInTile s i x y → pixelAt t.planes.t x y = pixelAt s.planes.t x y

/-- What reset leaves, of the values the spec gives: the power state, the thirteen defaults, the temperature with its
stale state, the free lanes, the empty queues and tables (R122, R133, R136, R152, R157, R163, R168); and the machine
right after reset meets every condition that steps keep. -/
def Obligations.ResetLeavesDefaults : Prop :=
  (∀ (cause : ResetCause) (nv : NvStore) (pins : Pins) (pending : List Instr) (s : State),
    s = State.afterReset cause nv pins pending →
      s.settings.power = .starting ∧ s.settings.lastActive = none
      ∧ (List.range 13).map (applied s) = [2560, 1920, 12, 0, 16, 15, 12, 0, 1, 0, 1, 0, 0]
      ∧ (∀ id, (setting s.settings id).pending = none)
      ∧ s.lanes.temperature = 25 ∧ s.lanes.stale = true ∧ s.lanes.frameCount = 0
      ∧ s.lanes.lanes = List.replicate 8 .free ∧ s.sched.tiles = [] ∧ s.sched.queue = [] ∧ s.sched.nextId = 1
      ∧ s.link.hunt = .hunt ∧ s.link.requests = [] ∧ s.link.reserved = 0 ∧ s.link.filled = []
      ∧ s.notices.buffer = [] ∧ s.notices.nextSeq = 0 ∧ s.notices.lost = false
      ∧ s.flows = List.replicate 4 [] ∧ s.styles = List.replicate 32 Style.default ∧ s.notes = []
      ∧ s.comp.jobs = [] ∧ s.comp.started = none ∧ s.comp.retints = [] ∧ s.comp.commit = .empty
      ∧ s.store.nv = nv ∧ State.attn s = false)
    ∧ Bounded State.reset ∧ PlanesWf State.reset ∧ PathDiscipline State.reset ∧ FlightDiscipline State.reset
    ∧ SettingsInRange State.reset ∧ LevelsWf State.reset ∧ NotesWf State.reset ∧ PortWf State.reset ∧ TilesWf State.reset
    ∧ RecordsWf State.reset ∧ StoreWf State.reset

end
end

