-- ==== Sys2Proof/Laws/Planes.lean ====
section
/-! SUPPORT. What the plane operations do: each keeps the canonical form of a plane, and each is said once by the level it
leaves at every key. -/

namespace Sys2Proof.Machine

/-- A plane whose entries all lie at or above a key reads as 15 below it. -/
theorem planeGet_below (p : Plane) (m j : Nat) (h : ∀ e ∈ p, m ≤ e.1) (hj : j < m) : planeGet p j = 15 := by
  induction p with
  | nil => rfl
  | cons e p ih =>
    obtain ⟨k, l⟩ := e
    have hk : m ≤ k := h (k, l) (by simp)
    have : k ≠ j := by omega
    simp only [planeGet, this, if_false]
    exact ih (fun e he => h e (by simp [he]))

/-- Reading a plane made of a part below a key and a part at or above it. -/
theorem planeGet_append (a b : Plane) (m j : Nat) (ha : ∀ e ∈ a, e.1 < m) (hb : ∀ e ∈ b, m ≤ e.1) :
    planeGet (a ++ b) j = if j < m then planeGet a j else planeGet b j := by
  induction a with
  | nil =>
    by_cases hj : j < m
    · simp [hj, planeGet, planeGet_below b m j hb hj]
    · simp [hj]
  | cons e a ih =>
    obtain ⟨k, l⟩ := e
    have hk : k < m := ha (k, l) (by simp)
    have := ih (fun e he => ha e (by simp [he]))
    simp only [List.cons_append, planeGet]
    by_cases hkj : k = j
    · have : j < m := by omega
      simp [hkj, this]
    · simp only [hkj, if_false]
      exact this

theorem planeGet_planeCons (k l : Nat) (p : Plane) (j : Nat) (h : ∀ e ∈ p, k + 1 ≤ e.1) :
    planeGet (planeCons k l p) j = if j = k then l else planeGet p j := by
  unfold planeCons
  by_cases hl : l = 15
  · by_cases hj : j = k
    · subst hj
      simp [hl, planeGet_below p (j + 1) j h (by omega)]
    · simp [hl, hj]
  · by_cases hj : j = k
    · simp [hl, hj, planeGet]
    · have : ¬k = j := fun e => hj e.symm
      simp [hl, hj, planeGet, this]

theorem planeCons_bound (k l : Nat) (p : Plane) (h : ∀ e ∈ p, k ≤ e.1) : ∀ e ∈ planeCons k l p, k ≤ e.1 := by
  unfold planeCons
  split
  · exact h
  · intro e he
    rcases List.mem_cons.mp he with rfl | he
    · exact Nat.le_refl _
    · exact h e he

theorem planeCons_wf (k l : Nat) (p : Plane) (hp : PlaneWf p) (h : ∀ e ∈ p, k + 1 ≤ e.1) : PlaneWf (planeCons k l p) := by
  unfold planeCons
  split
  · exact hp
  · rename_i hl
    refine ⟨List.pairwise_cons.mpr ⟨fun e he => h e he, hp.1⟩, ?_⟩
    intro e he
    rcases List.mem_cons.mp he with rfl | he
    · exact hl
    · exact hp.2 e he

theorem planeWf_append (a b : Plane) (m : Nat) (ha : PlaneWf a) (hb : PlaneWf b) (hal : ∀ e ∈ a, e.1 < m)
    (hbl : ∀ e ∈ b, m ≤ e.1) : PlaneWf (a ++ b) := by
  refine ⟨List.pairwise_append.mpr ⟨ha.1, hb.1, fun x hx y hy => ?_⟩, ?_⟩
  · exact Nat.lt_of_lt_of_le (hal x hx) (hbl y hy)
  · intro e he
    rcases List.mem_append.mp he with he | he
    · exact ha.2 e he
    · exact hb.2 e he

theorem takeWhile_below (p : Plane) (k : Nat) : ∀ e ∈ p.takeWhile (fun e => decide (e.1 < k)), e.1 < k := by
  intro e he
  have := List.mem_takeWhile_imp he
  simpa using this

/-- What stands after the entries below a key is at or above it, in a plane with rising keys. -/
theorem dropWhile_above (p : Plane) (k : Nat) (hp : p.Pairwise (fun a b => a.1 < b.1)) :
    ∀ e ∈ p.dropWhile (fun e => decide (e.1 < k)), k ≤ e.1 := by
  induction p with
  | nil => simp
  | cons a p ih =>
    have hp' := List.pairwise_cons.mp hp
    by_cases ha : a.1 < k
    · simpa [List.dropWhile_cons, ha] using ih hp'.2
    · simp only [List.dropWhile_cons, ha, decide_false, Bool.false_eq_true, if_false]
      intro e he
      rcases List.mem_cons.mp he with rfl | he
      · omega
      · have := hp'.1 e he
        omega

theorem planeWf_takeWhile (p : Plane) (q : Nat × Nat → Bool) (hp : PlaneWf p) : PlaneWf (p.takeWhile q) :=
  ⟨hp.1.sublist (List.takeWhile_sublist q), fun e he => hp.2 e ((List.takeWhile_sublist q).subset he)⟩

theorem planeWf_dropWhile (p : Plane) (q : Nat × Nat → Bool) (hp : PlaneWf p) : PlaneWf (p.dropWhile q) :=
  ⟨hp.1.sublist (List.dropWhile_sublist q), fun e he => hp.2 e ((List.dropWhile_sublist q).subset he)⟩

/-- One key of a row. -/
theorem planeRow_succ (f : Nat → Nat → Nat) (n k : Nat) (p : Plane) :
    planeRow f (n + 1) k p = p.takeWhile (fun e => decide (e.1 < k)) ++
      (match p.dropWhile (fun e => decide (e.1 < k)) with
       | [] => planeCons k (f k 15) (planeRow f n (k + 1) [])
       | (k', l) :: t =>
         if k' = k then planeCons k (f k l) (planeRow f n (k + 1) t)
         else planeCons k (f k 15) (planeRow f n (k + 1) ((k', l) :: t))) := rfl

/-- The three facts about a row, together: form, lower bound and contents. -/
theorem planeRow_spec (f : Nat → Nat → Nat) (n : Nat) : ∀ (k : Nat) (p : Plane), PlaneWf p →
    PlaneWf (planeRow f n k p) ∧
    (∀ m, m ≤ k → (∀ e ∈ p, m ≤ e.1) → ∀ e ∈ planeRow f n k p, m ≤ e.1) ∧
    ∀ j, planeGet (planeRow f n k p) j = if k ≤ j ∧ j < k + n then f j (planeGet p j) else planeGet p j := by
  induction n with
  | zero =>
    intro k p hp
    refine ⟨hp, fun m _ h => h, fun j => ?_⟩
    have : ¬(k ≤ j ∧ j < k + 0) := by omega
    rw [if_neg this]
    rfl
  | succ n ih =>
    intro k p hp
    have hsplit := List.takeWhile_append_dropWhile (p := fun e : Nat × Nat => decide (e.1 < k)) (l := p)
    generalize ha : p.takeWhile (fun e => decide (e.1 < k)) = a at hsplit
    generalize hb : p.dropWhile (fun e => decide (e.1 < k)) = b at hsplit
    have hal : ∀ e ∈ a, e.1 < k := by rw [← ha]; exact takeWhile_below p k
    have hbl : ∀ e ∈ b, k ≤ e.1 := by rw [← hb]; exact dropWhile_above p k hp.1
    have haw : PlaneWf a := by rw [← ha]; exact planeWf_takeWhile p _ hp
    have hbw : PlaneWf b := by rw [← hb]; exact planeWf_dropWhile p _ hp
    -- the part from k on
    obtain ⟨l0, t, ht, htl, hget, hrow⟩ : ∃ (l0 : Nat) (t : Plane), PlaneWf t ∧ (∀ e ∈ t, k + 1 ≤ e.1) ∧
        (∀ j, planeGet b j = if j = k then l0 else planeGet t j) ∧
        planeRow f (n + 1) k p = a ++ planeCons k (f k l0) (planeRow f n (k + 1) t) := by
      rw [planeRow_succ, ha, hb]
      match b, hbl, hbw with
      | [], _, _ => exact ⟨15, [], ⟨by simp, by simp⟩, by simp, by intro j; simp [planeGet], rfl⟩
      | (k', l) :: t, hbl, hbw =>
        have hpw := List.pairwise_cons.mp hbw.1
        have htw : PlaneWf t := ⟨hpw.2, fun e he => hbw.2 e (by simp [he])⟩
        by_cases hk : k' = k
        · refine ⟨l, t, htw, fun e he => ?_, fun j => ?_, by simp [hk]⟩
          · have := hpw.1 e he
            simp only at this
            omega
          · subst hk
            by_cases hj : j = k'
            · simp [planeGet, hj]
            · have : ¬k' = j := fun e => hj e.symm
              simp [planeGet, hj, this]
        · have hge : k + 1 ≤ k' := by
            have := hbl (k', l) (by simp)
            simp only at this
            omega
          refine ⟨15, (k', l) :: t, hbw, fun e he => ?_, fun j => ?_, by simp [hk]⟩
          · rcases List.mem_cons.mp he with rfl | he
            · exact hge
            · have := hpw.1 e he
              simp only at this
              omega
          · by_cases hj : j = k
            · subst hj
              rw [if_pos rfl]
              refine planeGet_below _ (j + 1) j (fun e he => ?_) (by omega)
              rcases List.mem_cons.mp he with rfl | he
              · exact hge
              · have := hpw.1 e he
                simp only at this
                omega
            · simp [hj]
    obtain ⟨hw, hlow, hval⟩ := ih (k + 1) t ht
    have hrl := hlow (k + 1) (Nat.le_refl _) htl
    have hcl : ∀ e ∈ planeCons k (f k l0) (planeRow f n (k + 1) t), k ≤ e.1 :=
      planeCons_bound _ _ _ (fun e he => by have := hrl e he; omega)
    have hcw := planeCons_wf k (f k l0) _ hw hrl
    rw [hrow]
    refine ⟨planeWf_append a _ k haw hcw hal hcl, fun m hm hpm e he => ?_, fun j => ?_⟩
    · rcases List.mem_append.mp he with he | he
      · exact hpm e (by rw [← hsplit]; simp [he])
      · have := hcl e he
        omega
    · rw [planeGet_append a _ k j hal hcl, ← hsplit, planeGet_append a b k j hal hbl, planeGet_planeCons k _ _ j hrl, hget j,
        hval j]
      rcases Nat.lt_trichotomy j k with hj | hj | hj
      · have h1 : ¬(k ≤ j ∧ j < k + (n + 1)) := by omega
        simp [hj, h1]
      · subst hj
        simp
      · have h1 : ¬j < k := by omega
        have h2 : j ≠ k := by omega
        simp only [if_neg h1, if_neg h2]
        by_cases h3 : j < k + 1 + n
        · rw [if_pos ⟨by omega, h3⟩, if_pos ⟨by omega, by omega⟩]
        · rw [if_neg (by omega), if_neg (by omega)]

/-- A row keeps the canonical form. -/
theorem planeRow_wf (f : Nat → Nat → Nat) (n k : Nat) (p : Plane) (hp : PlaneWf p) : PlaneWf (planeRow f n k p) :=
  (planeRow_spec f n k p hp).1

/-- A row changes exactly its keys. -/
theorem planeGet_planeRow (f : Nat → Nat → Nat) (n k : Nat) (p : Plane) (hp : PlaneWf p) (j : Nat) :
    planeGet (planeRow f n k p) j = if k ≤ j ∧ j < k + n then f j (planeGet p j) else planeGet p j :=
  (planeRow_spec f n k p hp).2.2 j

/-- Rows, one after another, keep the canonical form. -/
theorem rows_wf (g : Nat → Plane → Plane) (hg : ∀ y q, PlaneWf q → PlaneWf (g y q)) (l : List Nat) :
    ∀ p, PlaneWf p → PlaneWf (l.foldl (fun q y => g y q) p) := by
  induction l with
  | nil => exact fun p hp => hp
  | cons y l ih => exact fun p hp => ih _ (hg y p hp)

/-- The operation behind every drawing keeps the canonical form. -/
theorem planeRect_wf (r : PRect) (f : Nat → Nat → Nat → Nat) (p : Plane) (hp : PlaneWf p) : PlaneWf (planeRect r f p) :=
  rows_wf (fun y q => planeRow (fun k old => f (k - y * 4096) y old) r.w (planeKey r.x y) q)
    (fun _ q hq => planeRow_wf _ _ _ q hq) _ p hp

/-- Copying a rectangle of pixels keeps the canonical form. -/
theorem planeCopy_wf (r : PRect) (f : Nat → Nat) (src dst : Plane) (hd : PlaneWf dst) : PlaneWf (planeCopy r f src dst) :=
  rows_wf (fun y q =>
      planeRow (fun k _ => f (planeGet (src.filter (fun e => decide (planeKey r.x y ≤ e.1 ∧ e.1 < planeKey r.x y + r.w))) k))
        r.w (planeKey r.x y) q)
    (fun _ q hq => planeRow_wf _ _ _ q hq) _ dst hd

/-- Keeping the entries of some keys keeps what those keys read as. -/
theorem planeGet_filter (q : Nat → Bool) (p : Plane) (j : Nat) (hj : q j = true) :
    planeGet (p.filter (fun e => q e.1)) j = planeGet p j := by
  induction p with
  | nil => rfl
  | cons e p ih =>
    obtain ⟨k, l⟩ := e
    by_cases hk : k = j
    · subst hk
      simp [planeGet, hj]
    · by_cases hq : q k = true
      · simp [planeGet, hq, hk, ih]
      · simp [planeGet, hq, hk, ih]

/-- A key lies in a rectangle: it is the key of one of its pixels. -/
def keyIn (r : PRect) (j : Nat) : Prop := ∃ y, (r.y ≤ y ∧ y < r.y + r.h) ∧ planeKey r.x y ≤ j ∧ j < planeKey r.x y + r.w

/-- Rows over rising lines: a key outside every row keeps its level. -/
theorem planeGet_planeCopy_outside (r : PRect) (f : Nat → Nat) (src dst : Plane) (hd : PlaneWf dst) (j : Nat)
    (hj : ¬keyIn r j) : planeGet (planeCopy r f src dst) j = planeGet dst j := by
  unfold planeCopy
  have hmem : ∀ y ∈ List.range' r.y r.h, ¬(planeKey r.x y ≤ j ∧ j < planeKey r.x y + r.w) := by
    intro y hy h
    rw [List.mem_range'_1] at hy
    exact hj ⟨y, hy, h⟩
  revert hmem
  generalize List.range' r.y r.h = l
  intro hmem
  induction l generalizing dst with
  | nil => rfl
  | cons y l ih =>
    rw [List.foldl_cons, ih _ (planeRow_wf _ _ _ _ hd) (fun z hz => hmem z (by simp [hz]))]
    have := hmem y (by simp)
    rw [planeGet_planeRow _ _ _ _ hd, if_neg this]

/-- A key inside reads as `f` of the source's level there. -/
theorem planeGet_planeCopy_inside (r : PRect) (f : Nat → Nat) (src dst : Plane) (hd : PlaneWf dst) (j : Nat)
    (hj : keyIn r j) : planeGet (planeCopy r f src dst) j = f (planeGet src j) := by
  unfold planeCopy
  obtain ⟨y, hy, hk⟩ := hj
  have hmem : y ∈ List.range' r.y r.h := by
    rw [List.mem_range'_1]
    exact hy
  revert hmem
  generalize List.range' r.y r.h = l
  intro hmem
  have key : ∀ (l : List Nat) (q : Plane), PlaneWf q → (planeGet q j = f (planeGet src j) ∨ y ∈ l) →
      planeGet (l.foldl (fun q y =>
        let part := src.filter (fun e => decide (planeKey r.x y ≤ e.1 ∧ e.1 < planeKey r.x y + r.w))
        planeRow (fun k _ => f (planeGet part k)) r.w (planeKey r.x y) q) q) j = f (planeGet src j) := by
    intro l
    induction l with
    | nil =>
      intro q _ h
      rcases h with h | h
      · exact h
      · simp at h
    | cons z l ih =>
      intro q hq h
      rw [List.foldl_cons]
      refine ih _ (planeRow_wf _ _ _ _ hq) ?_
      rw [planeGet_planeRow _ _ _ _ hq]
      by_cases hz : planeKey r.x z ≤ j ∧ j < planeKey r.x z + r.w
      · left
        rw [if_pos hz]
        exact congrArg f (planeGet_filter (fun k => decide (planeKey r.x z ≤ k ∧ k < planeKey r.x z + r.w)) src j (by simpa using hz))
      · rw [if_neg hz]
        rcases h with h | h
        · exact .inl h
        · rcases List.mem_cons.mp h with rfl | h
          · exact absurd hk hz
          · exact .inr h
  exact key l dst hd (.inr hmem)

/-- What a drawing operation leaves in W. -/
theorem drawRect_w (r : PRect) (a : Nat → Nat → Bool) (f : Nat → Nat → Nat → Nat) (s : State) :
    (drawRect r a f s).planes.w = planeRect r (fun x y p => if a x y = true then f x y p else p) s.planes.w := by
  unfold drawRect
  rfl

/-- A drawing operation keeps the canonical form of W. -/
theorem drawRect_wf (r : PRect) (a : Nat → Nat → Bool) (f : Nat → Nat → Nat → Nat) (s : State) (h : PlaneWf s.planes.w) :
    PlaneWf (drawRect r a f s).planes.w := by
  rw [drawRect_w]
  exact planeRect_wf _ _ _ h

/-- A drawing operation leaves T and G alone. -/
@[simp] theorem drawRect_t (r : PRect) (a : Nat → Nat → Bool) (f : Nat → Nat → Nat → Nat) (s : State) :
    (drawRect r a f s).planes.t = s.planes.t := rfl
@[simp] theorem drawRect_g (r : PRect) (a : Nat → Nat → Bool) (f : Nat → Nat → Nat → Nat) (s : State) :
    (drawRect r a f s).planes.g = s.planes.g := rfl

/-- A copied tile changes T alone, and T keeps its form. -/
theorem copyTilePixels_wf (cols i : Nat) (p : Planes) (h : PlaneWf p.t) : PlaneWf (copyTilePixels cols i p).t :=
  planeCopy_wf _ _ _ _ h
@[simp] theorem copyTilePixels_w (cols i : Nat) (p : Planes) : (copyTilePixels cols i p).w = p.w := by
  unfold copyTilePixels
  rfl
@[simp] theorem copyTilePixels_g (cols i : Nat) (p : Planes) : (copyTilePixels cols i p).g = p.g := by
  unfold copyTilePixels
  rfl

end Sys2Proof.Machine
end

