-- ==== Sys2Proof/Laws/State.lean ====
section
/-! SUPPORT. One lemma for each update of the state and each field that it leaves alone, so that no later proof unfolds a
record update. -/

namespace Sys2Proof.Machine

@[simp] theorem post_pins (b : NoticeBody) (s : State) : (post b s).pins = s.pins := rfl
@[simp] theorem post_link (b : NoticeBody) (s : State) : (post b s).link = s.link := rfl
@[simp] theorem post_flows (b : NoticeBody) (s : State) : (post b s).flows = s.flows := rfl
@[simp] theorem post_styles (b : NoticeBody) (s : State) : (post b s).styles = s.styles := rfl
@[simp] theorem post_store (b : NoticeBody) (s : State) : (post b s).store = s.store := rfl
@[simp] theorem post_comp (b : NoticeBody) (s : State) : (post b s).comp = s.comp := rfl
@[simp] theorem post_notes (b : NoticeBody) (s : State) : (post b s).notes = s.notes := rfl
@[simp] theorem post_planes (b : NoticeBody) (s : State) : (post b s).planes = s.planes := rfl
@[simp] theorem post_sched (b : NoticeBody) (s : State) : (post b s).sched = s.sched := rfl
@[simp] theorem post_lanes (b : NoticeBody) (s : State) : (post b s).lanes = s.lanes := rfl
@[simp] theorem post_settings (b : NoticeBody) (s : State) : (post b s).settings = s.settings := rfl
@[simp] theorem post_pending (b : NoticeBody) (s : State) : (post b s).pending = s.pending := rfl

@[simp] theorem answer_pins (tag kind : Byte) (a : Status × ReplyFields) (s : State) : (answer tag kind a s).pins = s.pins := rfl
@[simp] theorem answer_flows (tag kind : Byte) (a : Status × ReplyFields) (s : State) : (answer tag kind a s).flows = s.flows := rfl
@[simp] theorem answer_styles (tag kind : Byte) (a : Status × ReplyFields) (s : State) : (answer tag kind a s).styles = s.styles := rfl
@[simp] theorem answer_store (tag kind : Byte) (a : Status × ReplyFields) (s : State) : (answer tag kind a s).store = s.store := rfl
@[simp] theorem answer_comp (tag kind : Byte) (a : Status × ReplyFields) (s : State) : (answer tag kind a s).comp = s.comp := rfl
@[simp] theorem answer_notes (tag kind : Byte) (a : Status × ReplyFields) (s : State) : (answer tag kind a s).notes = s.notes := rfl
@[simp] theorem answer_planes (tag kind : Byte) (a : Status × ReplyFields) (s : State) : (answer tag kind a s).planes = s.planes := rfl
@[simp] theorem answer_sched (tag kind : Byte) (a : Status × ReplyFields) (s : State) : (answer tag kind a s).sched = s.sched := rfl
@[simp] theorem answer_lanes (tag kind : Byte) (a : Status × ReplyFields) (s : State) : (answer tag kind a s).lanes = s.lanes := rfl
@[simp] theorem answer_notices (tag kind : Byte) (a : Status × ReplyFields) (s : State) : (answer tag kind a s).notices = s.notices := rfl
@[simp] theorem answer_settings (tag kind : Byte) (a : Status × ReplyFields) (s : State) : (answer tag kind a s).settings = s.settings := rfl
@[simp] theorem answer_pending (tag kind : Byte) (a : Status × ReplyFields) (s : State) : (answer tag kind a s).pending = s.pending := rfl

@[simp] theorem fillDecided_pins (s : State) : (fillDecided s).pins = s.pins := rfl
@[simp] theorem fillDecided_flows (s : State) : (fillDecided s).flows = s.flows := rfl
@[simp] theorem fillDecided_styles (s : State) : (fillDecided s).styles = s.styles := rfl
@[simp] theorem fillDecided_comp (s : State) : (fillDecided s).comp = s.comp := rfl
@[simp] theorem fillDecided_notes (s : State) : (fillDecided s).notes = s.notes := rfl
@[simp] theorem fillDecided_planes (s : State) : (fillDecided s).planes = s.planes := rfl
@[simp] theorem fillDecided_sched (s : State) : (fillDecided s).sched = s.sched := rfl
@[simp] theorem fillDecided_lanes (s : State) : (fillDecided s).lanes = s.lanes := rfl
@[simp] theorem fillDecided_notices (s : State) : (fillDecided s).notices = s.notices := rfl
@[simp] theorem fillDecided_settings (s : State) : (fillDecided s).settings = s.settings := rfl
@[simp] theorem fillDecided_pending (s : State) : (fillDecided s).pending = s.pending := rfl

@[simp] theorem holdReply_pins (tag kind : Byte) (a : Option (Status × ReplyFields)) (s : State) : (holdReply tag kind a s).pins = s.pins := rfl
@[simp] theorem holdReply_flows (tag kind : Byte) (a : Option (Status × ReplyFields)) (s : State) : (holdReply tag kind a s).flows = s.flows := rfl
@[simp] theorem holdReply_styles (tag kind : Byte) (a : Option (Status × ReplyFields)) (s : State) : (holdReply tag kind a s).styles = s.styles := rfl
@[simp] theorem holdReply_comp (tag kind : Byte) (a : Option (Status × ReplyFields)) (s : State) : (holdReply tag kind a s).comp = s.comp := rfl
@[simp] theorem holdReply_notes (tag kind : Byte) (a : Option (Status × ReplyFields)) (s : State) : (holdReply tag kind a s).notes = s.notes := rfl
@[simp] theorem holdReply_planes (tag kind : Byte) (a : Option (Status × ReplyFields)) (s : State) : (holdReply tag kind a s).planes = s.planes := rfl
@[simp] theorem holdReply_sched (tag kind : Byte) (a : Option (Status × ReplyFields)) (s : State) : (holdReply tag kind a s).sched = s.sched := rfl
@[simp] theorem holdReply_lanes (tag kind : Byte) (a : Option (Status × ReplyFields)) (s : State) : (holdReply tag kind a s).lanes = s.lanes := rfl
@[simp] theorem holdReply_notices (tag kind : Byte) (a : Option (Status × ReplyFields)) (s : State) : (holdReply tag kind a s).notices = s.notices := rfl
@[simp] theorem holdReply_settings (tag kind : Byte) (a : Option (Status × ReplyFields)) (s : State) : (holdReply tag kind a s).settings = s.settings := rfl
@[simp] theorem holdReply_pending (tag kind : Byte) (a : Option (Status × ReplyFields)) (s : State) : (holdReply tag kind a s).pending = s.pending := rfl

@[simp] theorem endOperation_pins (a : Status × ReplyFields) (s : State) : (endOperation a s).pins = s.pins := rfl
@[simp] theorem endOperation_flows (a : Status × ReplyFields) (s : State) : (endOperation a s).flows = s.flows := rfl
@[simp] theorem endOperation_styles (a : Status × ReplyFields) (s : State) : (endOperation a s).styles = s.styles := rfl
@[simp] theorem endOperation_comp (a : Status × ReplyFields) (s : State) : (endOperation a s).comp = s.comp := rfl
@[simp] theorem endOperation_notes (a : Status × ReplyFields) (s : State) : (endOperation a s).notes = s.notes := rfl
@[simp] theorem endOperation_planes (a : Status × ReplyFields) (s : State) : (endOperation a s).planes = s.planes := rfl
@[simp] theorem endOperation_sched (a : Status × ReplyFields) (s : State) : (endOperation a s).sched = s.sched := rfl
@[simp] theorem endOperation_lanes (a : Status × ReplyFields) (s : State) : (endOperation a s).lanes = s.lanes := rfl
@[simp] theorem endOperation_notices (a : Status × ReplyFields) (s : State) : (endOperation a s).notices = s.notices := rfl
@[simp] theorem endOperation_settings (a : Status × ReplyFields) (s : State) : (endOperation a s).settings = s.settings := rfl
@[simp] theorem endOperation_pending (a : Status × ReplyFields) (s : State) : (endOperation a s).pending = s.pending := rfl

@[simp] theorem beginOperation_pins (op : StoreOp) (slot : Nat) (s : State) : (beginOperation op slot s).pins = s.pins := rfl
@[simp] theorem beginOperation_link (op : StoreOp) (slot : Nat) (s : State) : (beginOperation op slot s).link = s.link := rfl
@[simp] theorem beginOperation_flows (op : StoreOp) (slot : Nat) (s : State) : (beginOperation op slot s).flows = s.flows := rfl
@[simp] theorem beginOperation_styles (op : StoreOp) (slot : Nat) (s : State) : (beginOperation op slot s).styles = s.styles := rfl
@[simp] theorem beginOperation_comp (op : StoreOp) (slot : Nat) (s : State) : (beginOperation op slot s).comp = s.comp := rfl
@[simp] theorem beginOperation_notes (op : StoreOp) (slot : Nat) (s : State) : (beginOperation op slot s).notes = s.notes := rfl
@[simp] theorem beginOperation_planes (op : StoreOp) (slot : Nat) (s : State) : (beginOperation op slot s).planes = s.planes := rfl
@[simp] theorem beginOperation_sched (op : StoreOp) (slot : Nat) (s : State) : (beginOperation op slot s).sched = s.sched := rfl
@[simp] theorem beginOperation_lanes (op : StoreOp) (slot : Nat) (s : State) : (beginOperation op slot s).lanes = s.lanes := rfl
@[simp] theorem beginOperation_notices (op : StoreOp) (slot : Nat) (s : State) : (beginOperation op slot s).notices = s.notices := rfl
@[simp] theorem beginOperation_settings (op : StoreOp) (slot : Nat) (s : State) : (beginOperation op slot s).settings = s.settings := rfl
@[simp] theorem beginOperation_pending (op : StoreOp) (slot : Nat) (s : State) : (beginOperation op slot s).pending = s.pending := rfl

@[simp] theorem drawRect_pins (r : PRect) (a : Nat → Nat → Bool) (f : Nat → Nat → Nat → Nat) (s : State) : (drawRect r a f s).pins = s.pins := rfl
@[simp] theorem drawRect_link (r : PRect) (a : Nat → Nat → Bool) (f : Nat → Nat → Nat → Nat) (s : State) : (drawRect r a f s).link = s.link := rfl
@[simp] theorem drawRect_flows (r : PRect) (a : Nat → Nat → Bool) (f : Nat → Nat → Nat → Nat) (s : State) : (drawRect r a f s).flows = s.flows := rfl
@[simp] theorem drawRect_styles (r : PRect) (a : Nat → Nat → Bool) (f : Nat → Nat → Nat → Nat) (s : State) : (drawRect r a f s).styles = s.styles := rfl
@[simp] theorem drawRect_store (r : PRect) (a : Nat → Nat → Bool) (f : Nat → Nat → Nat → Nat) (s : State) : (drawRect r a f s).store = s.store := rfl
@[simp] theorem drawRect_comp (r : PRect) (a : Nat → Nat → Bool) (f : Nat → Nat → Nat → Nat) (s : State) : (drawRect r a f s).comp = s.comp := rfl
@[simp] theorem drawRect_notes (r : PRect) (a : Nat → Nat → Bool) (f : Nat → Nat → Nat → Nat) (s : State) : (drawRect r a f s).notes = s.notes := rfl
@[simp] theorem drawRect_lanes (r : PRect) (a : Nat → Nat → Bool) (f : Nat → Nat → Nat → Nat) (s : State) : (drawRect r a f s).lanes = s.lanes := rfl
@[simp] theorem drawRect_notices (r : PRect) (a : Nat → Nat → Bool) (f : Nat → Nat → Nat → Nat) (s : State) : (drawRect r a f s).notices = s.notices := rfl
@[simp] theorem drawRect_settings (r : PRect) (a : Nat → Nat → Bool) (f : Nat → Nat → Nat → Nat) (s : State) : (drawRect r a f s).settings = s.settings := rfl
@[simp] theorem drawRect_pending (r : PRect) (a : Nat → Nat → Bool) (f : Nat → Nat → Nat → Nat) (s : State) : (drawRect r a f s).pending = s.pending := rfl

@[simp] theorem paperFill_pins (r : PRect) (p : Nat) (s : State) : (paperFill r p s).pins = s.pins := rfl
@[simp] theorem paperFill_link (r : PRect) (p : Nat) (s : State) : (paperFill r p s).link = s.link := rfl
@[simp] theorem paperFill_flows (r : PRect) (p : Nat) (s : State) : (paperFill r p s).flows = s.flows := rfl
@[simp] theorem paperFill_styles (r : PRect) (p : Nat) (s : State) : (paperFill r p s).styles = s.styles := rfl
@[simp] theorem paperFill_store (r : PRect) (p : Nat) (s : State) : (paperFill r p s).store = s.store := rfl
@[simp] theorem paperFill_comp (r : PRect) (p : Nat) (s : State) : (paperFill r p s).comp = s.comp := rfl
@[simp] theorem paperFill_notes (r : PRect) (p : Nat) (s : State) : (paperFill r p s).notes = s.notes := rfl
@[simp] theorem paperFill_lanes (r : PRect) (p : Nat) (s : State) : (paperFill r p s).lanes = s.lanes := rfl
@[simp] theorem paperFill_notices (r : PRect) (p : Nat) (s : State) : (paperFill r p s).notices = s.notices := rfl
@[simp] theorem paperFill_settings (r : PRect) (p : Nat) (s : State) : (paperFill r p s).settings = s.settings := rfl
@[simp] theorem paperFill_pending (r : PRect) (p : Nat) (s : State) : (paperFill r p s).pending = s.pending := rfl

@[simp] theorem drawEntry_pins (clip : PRect) (s : State) (e : DrawEntry) : (drawEntry clip s e).pins = s.pins := rfl
@[simp] theorem drawEntry_link (clip : PRect) (s : State) (e : DrawEntry) : (drawEntry clip s e).link = s.link := rfl
@[simp] theorem drawEntry_flows (clip : PRect) (s : State) (e : DrawEntry) : (drawEntry clip s e).flows = s.flows := rfl
@[simp] theorem drawEntry_styles (clip : PRect) (s : State) (e : DrawEntry) : (drawEntry clip s e).styles = s.styles := rfl
@[simp] theorem drawEntry_store (clip : PRect) (s : State) (e : DrawEntry) : (drawEntry clip s e).store = s.store := rfl
@[simp] theorem drawEntry_comp (clip : PRect) (s : State) (e : DrawEntry) : (drawEntry clip s e).comp = s.comp := rfl
@[simp] theorem drawEntry_notes (clip : PRect) (s : State) (e : DrawEntry) : (drawEntry clip s e).notes = s.notes := rfl
@[simp] theorem drawEntry_lanes (clip : PRect) (s : State) (e : DrawEntry) : (drawEntry clip s e).lanes = s.lanes := rfl
@[simp] theorem drawEntry_notices (clip : PRect) (s : State) (e : DrawEntry) : (drawEntry clip s e).notices = s.notices := rfl
@[simp] theorem drawEntry_settings (clip : PRect) (s : State) (e : DrawEntry) : (drawEntry clip s e).settings = s.settings := rfl
@[simp] theorem drawEntry_pending (clip : PRect) (s : State) (e : DrawEntry) : (drawEntry clip s e).pending = s.pending := rfl

@[simp] theorem withJob_pins (j : Job) (s : State) : (withJob j s).pins = s.pins := rfl
@[simp] theorem withJob_link (j : Job) (s : State) : (withJob j s).link = s.link := rfl
@[simp] theorem withJob_flows (j : Job) (s : State) : (withJob j s).flows = s.flows := rfl
@[simp] theorem withJob_styles (j : Job) (s : State) : (withJob j s).styles = s.styles := rfl
@[simp] theorem withJob_store (j : Job) (s : State) : (withJob j s).store = s.store := rfl
@[simp] theorem withJob_notes (j : Job) (s : State) : (withJob j s).notes = s.notes := rfl
@[simp] theorem withJob_planes (j : Job) (s : State) : (withJob j s).planes = s.planes := rfl
@[simp] theorem withJob_sched (j : Job) (s : State) : (withJob j s).sched = s.sched := rfl
@[simp] theorem withJob_lanes (j : Job) (s : State) : (withJob j s).lanes = s.lanes := rfl
@[simp] theorem withJob_notices (j : Job) (s : State) : (withJob j s).notices = s.notices := rfl
@[simp] theorem withJob_settings (j : Job) (s : State) : (withJob j s).settings = s.settings := rfl
@[simp] theorem withJob_pending (j : Job) (s : State) : (withJob j s).pending = s.pending := rfl

@[simp] theorem endAborted_pins (j : Job) (f : JobState) (s : State) : (endAborted j f s).pins = s.pins := rfl
@[simp] theorem endAborted_link (j : Job) (f : JobState) (s : State) : (endAborted j f s).link = s.link := rfl
@[simp] theorem endAborted_flows (j : Job) (f : JobState) (s : State) : (endAborted j f s).flows = s.flows := rfl
@[simp] theorem endAborted_styles (j : Job) (f : JobState) (s : State) : (endAborted j f s).styles = s.styles := rfl
@[simp] theorem endAborted_store (j : Job) (f : JobState) (s : State) : (endAborted j f s).store = s.store := rfl
@[simp] theorem endAborted_notes (j : Job) (f : JobState) (s : State) : (endAborted j f s).notes = s.notes := rfl
@[simp] theorem endAborted_planes (j : Job) (f : JobState) (s : State) : (endAborted j f s).planes = s.planes := rfl
@[simp] theorem endAborted_sched (j : Job) (f : JobState) (s : State) : (endAborted j f s).sched = s.sched := rfl
@[simp] theorem endAborted_lanes (j : Job) (f : JobState) (s : State) : (endAborted j f s).lanes = s.lanes := rfl
@[simp] theorem endAborted_settings (j : Job) (f : JobState) (s : State) : (endAborted j f s).settings = s.settings := rfl
@[simp] theorem endAborted_pending (j : Job) (f : JobState) (s : State) : (endAborted j f s).pending = s.pending := rfl

@[simp] theorem endFailed_pins (j : Job) (r : FailReason) (p : Pos) (q : Pass) (s : State) : (endFailed j r p q s).pins = s.pins := rfl
@[simp] theorem endFailed_link (j : Job) (r : FailReason) (p : Pos) (q : Pass) (s : State) : (endFailed j r p q s).link = s.link := rfl
@[simp] theorem endFailed_flows (j : Job) (r : FailReason) (p : Pos) (q : Pass) (s : State) : (endFailed j r p q s).flows = s.flows := rfl
@[simp] theorem endFailed_styles (j : Job) (r : FailReason) (p : Pos) (q : Pass) (s : State) : (endFailed j r p q s).styles = s.styles := rfl
@[simp] theorem endFailed_store (j : Job) (r : FailReason) (p : Pos) (q : Pass) (s : State) : (endFailed j r p q s).store = s.store := rfl
@[simp] theorem endFailed_notes (j : Job) (r : FailReason) (p : Pos) (q : Pass) (s : State) : (endFailed j r p q s).notes = s.notes := rfl
@[simp] theorem endFailed_planes (j : Job) (r : FailReason) (p : Pos) (q : Pass) (s : State) : (endFailed j r p q s).planes = s.planes := rfl
@[simp] theorem endFailed_sched (j : Job) (r : FailReason) (p : Pos) (q : Pass) (s : State) : (endFailed j r p q s).sched = s.sched := rfl
@[simp] theorem endFailed_lanes (j : Job) (r : FailReason) (p : Pos) (q : Pass) (s : State) : (endFailed j r p q s).lanes = s.lanes := rfl
@[simp] theorem endFailed_settings (j : Job) (r : FailReason) (p : Pos) (q : Pass) (s : State) : (endFailed j r p q s).settings = s.settings := rfl
@[simp] theorem endFailed_pending (j : Job) (r : FailReason) (p : Pos) (q : Pass) (s : State) : (endFailed j r p q s).pending = s.pending := rfl

@[simp] theorem withLane_pins (lane : Nat) (v : Lane) (s : State) : (withLane lane v s).pins = s.pins := rfl
@[simp] theorem withLane_link (lane : Nat) (v : Lane) (s : State) : (withLane lane v s).link = s.link := rfl
@[simp] theorem withLane_flows (lane : Nat) (v : Lane) (s : State) : (withLane lane v s).flows = s.flows := rfl
@[simp] theorem withLane_styles (lane : Nat) (v : Lane) (s : State) : (withLane lane v s).styles = s.styles := rfl
@[simp] theorem withLane_store (lane : Nat) (v : Lane) (s : State) : (withLane lane v s).store = s.store := rfl
@[simp] theorem withLane_comp (lane : Nat) (v : Lane) (s : State) : (withLane lane v s).comp = s.comp := rfl
@[simp] theorem withLane_notes (lane : Nat) (v : Lane) (s : State) : (withLane lane v s).notes = s.notes := rfl
@[simp] theorem withLane_planes (lane : Nat) (v : Lane) (s : State) : (withLane lane v s).planes = s.planes := rfl
@[simp] theorem withLane_sched (lane : Nat) (v : Lane) (s : State) : (withLane lane v s).sched = s.sched := rfl
@[simp] theorem withLane_notices (lane : Nat) (v : Lane) (s : State) : (withLane lane v s).notices = s.notices := rfl
@[simp] theorem withLane_settings (lane : Nat) (v : Lane) (s : State) : (withLane lane v s).settings = s.settings := rfl
@[simp] theorem withLane_pending (lane : Nat) (v : Lane) (s : State) : (withLane lane v s).pending = s.pending := rfl

@[simp] theorem withHunt_pins (h : Hunt) (s : State) : (withHunt h s).pins = s.pins := rfl
@[simp] theorem withHunt_flows (h : Hunt) (s : State) : (withHunt h s).flows = s.flows := rfl
@[simp] theorem withHunt_styles (h : Hunt) (s : State) : (withHunt h s).styles = s.styles := rfl
@[simp] theorem withHunt_store (h : Hunt) (s : State) : (withHunt h s).store = s.store := rfl
@[simp] theorem withHunt_comp (h : Hunt) (s : State) : (withHunt h s).comp = s.comp := rfl
@[simp] theorem withHunt_notes (h : Hunt) (s : State) : (withHunt h s).notes = s.notes := rfl
@[simp] theorem withHunt_planes (h : Hunt) (s : State) : (withHunt h s).planes = s.planes := rfl
@[simp] theorem withHunt_sched (h : Hunt) (s : State) : (withHunt h s).sched = s.sched := rfl
@[simp] theorem withHunt_lanes (h : Hunt) (s : State) : (withHunt h s).lanes = s.lanes := rfl
@[simp] theorem withHunt_notices (h : Hunt) (s : State) : (withHunt h s).notices = s.notices := rfl
@[simp] theorem withHunt_settings (h : Hunt) (s : State) : (withHunt h s).settings = s.settings := rfl
@[simp] theorem withHunt_pending (h : Hunt) (s : State) : (withHunt h s).pending = s.pending := rfl

@[simp] theorem changeTile_pins (i : Nat) (f : TileRec → TileRec) (s : State) : (changeTile i f s).pins = s.pins := rfl
@[simp] theorem changeTile_link (i : Nat) (f : TileRec → TileRec) (s : State) : (changeTile i f s).link = s.link := rfl
@[simp] theorem changeTile_flows (i : Nat) (f : TileRec → TileRec) (s : State) : (changeTile i f s).flows = s.flows := rfl
@[simp] theorem changeTile_styles (i : Nat) (f : TileRec → TileRec) (s : State) : (changeTile i f s).styles = s.styles := rfl
@[simp] theorem changeTile_store (i : Nat) (f : TileRec → TileRec) (s : State) : (changeTile i f s).store = s.store := rfl
@[simp] theorem changeTile_comp (i : Nat) (f : TileRec → TileRec) (s : State) : (changeTile i f s).comp = s.comp := rfl
@[simp] theorem changeTile_notes (i : Nat) (f : TileRec → TileRec) (s : State) : (changeTile i f s).notes = s.notes := rfl
@[simp] theorem changeTile_planes (i : Nat) (f : TileRec → TileRec) (s : State) : (changeTile i f s).planes = s.planes := rfl
@[simp] theorem changeTile_lanes (i : Nat) (f : TileRec → TileRec) (s : State) : (changeTile i f s).lanes = s.lanes := rfl
@[simp] theorem changeTile_notices (i : Nat) (f : TileRec → TileRec) (s : State) : (changeTile i f s).notices = s.notices := rfl
@[simp] theorem changeTile_settings (i : Nat) (f : TileRec → TileRec) (s : State) : (changeTile i f s).settings = s.settings := rfl
@[simp] theorem changeTile_pending (i : Nat) (f : TileRec → TileRec) (s : State) : (changeTile i f s).pending = s.pending := rfl

@[simp] theorem landLane_pins (lane : Nat) (d : Drive) (s : State) : (landLane lane d s).pins = s.pins := rfl
@[simp] theorem landLane_link (lane : Nat) (d : Drive) (s : State) : (landLane lane d s).link = s.link := rfl
@[simp] theorem landLane_flows (lane : Nat) (d : Drive) (s : State) : (landLane lane d s).flows = s.flows := rfl
@[simp] theorem landLane_styles (lane : Nat) (d : Drive) (s : State) : (landLane lane d s).styles = s.styles := rfl
@[simp] theorem landLane_store (lane : Nat) (d : Drive) (s : State) : (landLane lane d s).store = s.store := rfl
@[simp] theorem landLane_comp (lane : Nat) (d : Drive) (s : State) : (landLane lane d s).comp = s.comp := rfl
@[simp] theorem landLane_notes (lane : Nat) (d : Drive) (s : State) : (landLane lane d s).notes = s.notes := rfl
@[simp] theorem landLane_lanes (lane : Nat) (d : Drive) (s : State) : (landLane lane d s).lanes = s.lanes := rfl
@[simp] theorem landLane_notices (lane : Nat) (d : Drive) (s : State) : (landLane lane d s).notices = s.notices := rfl
@[simp] theorem landLane_settings (lane : Nat) (d : Drive) (s : State) : (landLane lane d s).settings = s.settings := rfl
@[simp] theorem landLane_pending (lane : Nat) (d : Drive) (s : State) : (landLane lane d s).pending = s.pending := rfl

@[simp] theorem dispatch_pins (lane i : Nat) (s : State) : (dispatch lane i s).pins = s.pins := rfl
@[simp] theorem dispatch_link (lane i : Nat) (s : State) : (dispatch lane i s).link = s.link := rfl
@[simp] theorem dispatch_flows (lane i : Nat) (s : State) : (dispatch lane i s).flows = s.flows := rfl
@[simp] theorem dispatch_styles (lane i : Nat) (s : State) : (dispatch lane i s).styles = s.styles := rfl
@[simp] theorem dispatch_store (lane i : Nat) (s : State) : (dispatch lane i s).store = s.store := rfl
@[simp] theorem dispatch_comp (lane i : Nat) (s : State) : (dispatch lane i s).comp = s.comp := rfl
@[simp] theorem dispatch_notes (lane i : Nat) (s : State) : (dispatch lane i s).notes = s.notes := rfl
@[simp] theorem dispatch_planes (lane i : Nat) (s : State) : (dispatch lane i s).planes = s.planes := rfl
@[simp] theorem dispatch_notices (lane i : Nat) (s : State) : (dispatch lane i s).notices = s.notices := rfl
@[simp] theorem dispatch_settings (lane i : Nat) (s : State) : (dispatch lane i s).settings = s.settings := rfl
@[simp] theorem dispatch_pending (lane i : Nat) (s : State) : (dispatch lane i s).pending = s.pending := rfl

@[simp] theorem fillPlanes_pins (s : State) : (fillPlanes s).pins = s.pins := rfl
@[simp] theorem fillPlanes_link (s : State) : (fillPlanes s).link = s.link := rfl
@[simp] theorem fillPlanes_flows (s : State) : (fillPlanes s).flows = s.flows := rfl
@[simp] theorem fillPlanes_styles (s : State) : (fillPlanes s).styles = s.styles := rfl
@[simp] theorem fillPlanes_store (s : State) : (fillPlanes s).store = s.store := rfl
@[simp] theorem fillPlanes_notes (s : State) : (fillPlanes s).notes = s.notes := rfl
@[simp] theorem fillPlanes_lanes (s : State) : (fillPlanes s).lanes = s.lanes := rfl
@[simp] theorem fillPlanes_notices (s : State) : (fillPlanes s).notices = s.notices := rfl
@[simp] theorem fillPlanes_settings (s : State) : (fillPlanes s).settings = s.settings := rfl
@[simp] theorem fillPlanes_pending (s : State) : (fillPlanes s).pending = s.pending := rfl

@[simp] theorem resetPart_pins (c : ResetCause) (s : State) : (resetPart c s).pins = s.pins := rfl
@[simp] theorem resetPart_pending (c : ResetCause) (s : State) : (resetPart c s).pending = s.pending := rfl

@[simp] theorem tick_pins (s : State) : (tick s).pins = s.pins := rfl
@[simp] theorem tick_link (s : State) : (tick s).link = s.link := rfl
@[simp] theorem tick_flows (s : State) : (tick s).flows = s.flows := rfl
@[simp] theorem tick_styles (s : State) : (tick s).styles = s.styles := rfl
@[simp] theorem tick_store (s : State) : (tick s).store = s.store := rfl
@[simp] theorem tick_comp (s : State) : (tick s).comp = s.comp := rfl
@[simp] theorem tick_notes (s : State) : (tick s).notes = s.notes := rfl
@[simp] theorem tick_planes (s : State) : (tick s).planes = s.planes := rfl
@[simp] theorem tick_notices (s : State) : (tick s).notices = s.notices := rfl
@[simp] theorem tick_settings (s : State) : (tick s).settings = s.settings := rfl
@[simp] theorem tick_pending (s : State) : (tick s).pending = s.pending := rfl

@[simp] theorem setDriveHold_link (v : Bool) (s : State) : (setDriveHold v s).link = s.link := rfl
@[simp] theorem setDriveHold_flows (v : Bool) (s : State) : (setDriveHold v s).flows = s.flows := rfl
@[simp] theorem setDriveHold_styles (v : Bool) (s : State) : (setDriveHold v s).styles = s.styles := rfl
@[simp] theorem setDriveHold_store (v : Bool) (s : State) : (setDriveHold v s).store = s.store := rfl
@[simp] theorem setDriveHold_comp (v : Bool) (s : State) : (setDriveHold v s).comp = s.comp := rfl
@[simp] theorem setDriveHold_notes (v : Bool) (s : State) : (setDriveHold v s).notes = s.notes := rfl
@[simp] theorem setDriveHold_planes (v : Bool) (s : State) : (setDriveHold v s).planes = s.planes := rfl
@[simp] theorem setDriveHold_sched (v : Bool) (s : State) : (setDriveHold v s).sched = s.sched := rfl
@[simp] theorem setDriveHold_lanes (v : Bool) (s : State) : (setDriveHold v s).lanes = s.lanes := rfl
@[simp] theorem setDriveHold_notices (v : Bool) (s : State) : (setDriveHold v s).notices = s.notices := rfl
@[simp] theorem setDriveHold_settings (v : Bool) (s : State) : (setDriveHold v s).settings = s.settings := rfl
@[simp] theorem setDriveHold_pending (v : Bool) (s : State) : (setDriveHold v s).pending = s.pending := rfl

@[simp] theorem releaseReset_link (s : State) : (releaseReset s).link = s.link := rfl
@[simp] theorem releaseReset_flows (s : State) : (releaseReset s).flows = s.flows := rfl
@[simp] theorem releaseReset_styles (s : State) : (releaseReset s).styles = s.styles := rfl
@[simp] theorem releaseReset_store (s : State) : (releaseReset s).store = s.store := rfl
@[simp] theorem releaseReset_comp (s : State) : (releaseReset s).comp = s.comp := rfl
@[simp] theorem releaseReset_notes (s : State) : (releaseReset s).notes = s.notes := rfl
@[simp] theorem releaseReset_planes (s : State) : (releaseReset s).planes = s.planes := rfl
@[simp] theorem releaseReset_sched (s : State) : (releaseReset s).sched = s.sched := rfl
@[simp] theorem releaseReset_lanes (s : State) : (releaseReset s).lanes = s.lanes := rfl
@[simp] theorem releaseReset_notices (s : State) : (releaseReset s).notices = s.notices := rfl
@[simp] theorem releaseReset_settings (s : State) : (releaseReset s).settings = s.settings := rfl
@[simp] theorem releaseReset_pending (s : State) : (releaseReset s).pending = s.pending := rfl

@[simp] theorem noteGiven_pins (b : Byte) (s : State) : (noteGiven b s).pins = s.pins := rfl
@[simp] theorem noteBit_pins (b : Bool) (s : State) : (noteBit b s).pins = s.pins := rfl
@[simp] theorem noteGiven_flows (b : Byte) (s : State) : (noteGiven b s).flows = s.flows := rfl
@[simp] theorem noteBit_flows (b : Bool) (s : State) : (noteBit b s).flows = s.flows := rfl
@[simp] theorem noteGiven_styles (b : Byte) (s : State) : (noteGiven b s).styles = s.styles := rfl
@[simp] theorem noteBit_styles (b : Bool) (s : State) : (noteBit b s).styles = s.styles := rfl
@[simp] theorem noteGiven_store (b : Byte) (s : State) : (noteGiven b s).store = s.store := rfl
@[simp] theorem noteBit_store (b : Bool) (s : State) : (noteBit b s).store = s.store := rfl
@[simp] theorem noteGiven_comp (b : Byte) (s : State) : (noteGiven b s).comp = s.comp := rfl
@[simp] theorem noteBit_comp (b : Bool) (s : State) : (noteBit b s).comp = s.comp := rfl
@[simp] theorem noteGiven_notes (b : Byte) (s : State) : (noteGiven b s).notes = s.notes := rfl
@[simp] theorem noteBit_notes (b : Bool) (s : State) : (noteBit b s).notes = s.notes := rfl
@[simp] theorem noteGiven_planes (b : Byte) (s : State) : (noteGiven b s).planes = s.planes := rfl
@[simp] theorem noteBit_planes (b : Bool) (s : State) : (noteBit b s).planes = s.planes := rfl
@[simp] theorem noteGiven_sched (b : Byte) (s : State) : (noteGiven b s).sched = s.sched := rfl
@[simp] theorem noteBit_sched (b : Bool) (s : State) : (noteBit b s).sched = s.sched := rfl
@[simp] theorem noteGiven_lanes (b : Byte) (s : State) : (noteGiven b s).lanes = s.lanes := rfl
@[simp] theorem noteBit_lanes (b : Bool) (s : State) : (noteBit b s).lanes = s.lanes := rfl
@[simp] theorem noteGiven_notices (b : Byte) (s : State) : (noteGiven b s).notices = s.notices := rfl
@[simp] theorem noteBit_notices (b : Bool) (s : State) : (noteBit b s).notices = s.notices := rfl
@[simp] theorem noteGiven_settings (b : Byte) (s : State) : (noteGiven b s).settings = s.settings := rfl
@[simp] theorem noteBit_settings (b : Bool) (s : State) : (noteBit b s).settings = s.settings := rfl
@[simp] theorem noteGiven_pending (b : Byte) (s : State) : (noteGiven b s).pending = s.pending := rfl
@[simp] theorem noteBit_pending (b : Bool) (s : State) : (noteBit b s).pending = s.pending := rfl

@[simp] theorem clearGiven_pins (s : State) : (clearGiven s).pins = s.pins := rfl
@[simp] theorem clearGiven_flows (s : State) : (clearGiven s).flows = s.flows := rfl
@[simp] theorem clearGiven_styles (s : State) : (clearGiven s).styles = s.styles := rfl
@[simp] theorem clearGiven_store (s : State) : (clearGiven s).store = s.store := rfl
@[simp] theorem clearGiven_comp (s : State) : (clearGiven s).comp = s.comp := rfl
@[simp] theorem clearGiven_notes (s : State) : (clearGiven s).notes = s.notes := rfl
@[simp] theorem clearGiven_planes (s : State) : (clearGiven s).planes = s.planes := rfl
@[simp] theorem clearGiven_sched (s : State) : (clearGiven s).sched = s.sched := rfl
@[simp] theorem clearGiven_lanes (s : State) : (clearGiven s).lanes = s.lanes := rfl
@[simp] theorem clearGiven_notices (s : State) : (clearGiven s).notices = s.notices := rfl
@[simp] theorem clearGiven_settings (s : State) : (clearGiven s).settings = s.settings := rfl
@[simp] theorem clearGiven_pending (s : State) : (clearGiven s).pending = s.pending := rfl

@[simp] theorem releaseSelect_pins (s : State) : (releaseSelect s).pins = s.pins := rfl
@[simp] theorem releaseSelect_flows (s : State) : (releaseSelect s).flows = s.flows := rfl
@[simp] theorem releaseSelect_styles (s : State) : (releaseSelect s).styles = s.styles := rfl
@[simp] theorem releaseSelect_store (s : State) : (releaseSelect s).store = s.store := rfl
@[simp] theorem releaseSelect_comp (s : State) : (releaseSelect s).comp = s.comp := rfl
@[simp] theorem releaseSelect_notes (s : State) : (releaseSelect s).notes = s.notes := rfl
@[simp] theorem releaseSelect_planes (s : State) : (releaseSelect s).planes = s.planes := rfl
@[simp] theorem releaseSelect_sched (s : State) : (releaseSelect s).sched = s.sched := rfl
@[simp] theorem releaseSelect_lanes (s : State) : (releaseSelect s).lanes = s.lanes := rfl
@[simp] theorem releaseSelect_notices (s : State) : (releaseSelect s).notices = s.notices := rfl
@[simp] theorem releaseSelect_settings (s : State) : (releaseSelect s).settings = s.settings := rfl
@[simp] theorem releaseSelect_pending (s : State) : (releaseSelect s).pending = s.pending := rfl

@[simp] theorem withStage_pins (run : RetintRun) (stage : RetintStage) (s : State) : (withStage run stage s).pins = s.pins := rfl
@[simp] theorem withStage_link (run : RetintRun) (stage : RetintStage) (s : State) : (withStage run stage s).link = s.link := rfl
@[simp] theorem withStage_flows (run : RetintRun) (stage : RetintStage) (s : State) : (withStage run stage s).flows = s.flows := rfl
@[simp] theorem withStage_styles (run : RetintRun) (stage : RetintStage) (s : State) : (withStage run stage s).styles = s.styles := rfl
@[simp] theorem withStage_store (run : RetintRun) (stage : RetintStage) (s : State) : (withStage run stage s).store = s.store := rfl
@[simp] theorem withStage_notes (run : RetintRun) (stage : RetintStage) (s : State) : (withStage run stage s).notes = s.notes := rfl
@[simp] theorem withStage_planes (run : RetintRun) (stage : RetintStage) (s : State) : (withStage run stage s).planes = s.planes := rfl
@[simp] theorem withStage_sched (run : RetintRun) (stage : RetintStage) (s : State) : (withStage run stage s).sched = s.sched := rfl
@[simp] theorem withStage_lanes (run : RetintRun) (stage : RetintStage) (s : State) : (withStage run stage s).lanes = s.lanes := rfl
@[simp] theorem withStage_notices (run : RetintRun) (stage : RetintStage) (s : State) : (withStage run stage s).notices = s.notices := rfl
@[simp] theorem withStage_settings (run : RetintRun) (stage : RetintStage) (s : State) : (withStage run stage s).settings = s.settings := rfl
@[simp] theorem withStage_pending (run : RetintRun) (stage : RetintStage) (s : State) : (withStage run stage s).pending = s.pending := rfl

@[simp] theorem noteGiven_link_hunt (b : Byte) (s : State) : (noteGiven b s).link.hunt = s.link.hunt := rfl
@[simp] theorem noteBit_link_hunt (b : Bool) (s : State) : (noteBit b s).link.hunt = s.link.hunt := rfl
@[simp] theorem noteGiven_link_requests (b : Byte) (s : State) : (noteGiven b s).link.requests = s.link.requests := rfl
@[simp] theorem noteBit_link_requests (b : Bool) (s : State) : (noteBit b s).link.requests = s.link.requests := rfl
@[simp] theorem noteGiven_link_reserved (b : Byte) (s : State) : (noteGiven b s).link.reserved = s.link.reserved := rfl
@[simp] theorem noteBit_link_reserved (b : Bool) (s : State) : (noteBit b s).link.reserved = s.link.reserved := rfl
@[simp] theorem noteGiven_link_filled (b : Byte) (s : State) : (noteGiven b s).link.filled = s.link.filled := rfl
@[simp] theorem noteBit_link_filled (b : Bool) (s : State) : (noteBit b s).link.filled = s.link.filled := rfl
@[simp] theorem noteGiven_link_resetAwaits (b : Byte) (s : State) : (noteGiven b s).link.resetAwaits = s.link.resetAwaits := rfl
@[simp] theorem noteBit_link_resetAwaits (b : Bool) (s : State) : (noteBit b s).link.resetAwaits = s.link.resetAwaits := rfl
@[simp] theorem noteGiven_link_port (b : Byte) (s : State) : (noteGiven b s).link.port = s.link.port := rfl
@[simp] theorem noteBit_link_port (b : Bool) (s : State) : (noteBit b s).link.port = s.link.port := rfl
@[simp] theorem noteGiven_link_sent (b : Byte) (s : State) : (noteGiven b s).link.sent = s.link.sent := rfl
@[simp] theorem noteBit_link_sent (b : Bool) (s : State) : (noteBit b s).link.sent = s.link.sent := rfl
@[simp] theorem noteGiven_link_lastSent (b : Byte) (s : State) : (noteGiven b s).link.lastSent = s.link.lastSent := rfl
@[simp] theorem noteBit_link_lastSent (b : Bool) (s : State) : (noteBit b s).link.lastSent = s.link.lastSent := rfl
@[simp] theorem clearGiven_link_hunt (s : State) : (clearGiven s).link.hunt = s.link.hunt := rfl
@[simp] theorem clearGiven_link_requests (s : State) : (clearGiven s).link.requests = s.link.requests := rfl
@[simp] theorem clearGiven_link_reserved (s : State) : (clearGiven s).link.reserved = s.link.reserved := rfl
@[simp] theorem clearGiven_link_filled (s : State) : (clearGiven s).link.filled = s.link.filled := rfl
@[simp] theorem clearGiven_link_resetAwaits (s : State) : (clearGiven s).link.resetAwaits = s.link.resetAwaits := rfl
@[simp] theorem clearGiven_link_port (s : State) : (clearGiven s).link.port = s.link.port := rfl
@[simp] theorem clearGiven_link_sent (s : State) : (clearGiven s).link.sent = s.link.sent := rfl
@[simp] theorem clearGiven_link_lastSent (s : State) : (clearGiven s).link.lastSent = s.link.lastSent := rfl
@[simp] theorem releaseSelect_link_hunt (s : State) : (releaseSelect s).link.hunt = s.link.hunt := rfl
@[simp] theorem releaseSelect_link_requests (s : State) : (releaseSelect s).link.requests = s.link.requests := rfl
@[simp] theorem releaseSelect_link_reserved (s : State) : (releaseSelect s).link.reserved = s.link.reserved := rfl
@[simp] theorem releaseSelect_link_filled (s : State) : (releaseSelect s).link.filled = s.link.filled := rfl
@[simp] theorem releaseSelect_link_resetAwaits (s : State) : (releaseSelect s).link.resetAwaits = s.link.resetAwaits := rfl
@[simp] theorem releaseSelect_link_sent (s : State) : (releaseSelect s).link.sent = s.link.sent := rfl
@[simp] theorem releaseSelect_link_givenBits (s : State) : (releaseSelect s).link.givenBits = s.link.givenBits := rfl
@[simp] theorem releaseSelect_link_given (s : State) : (releaseSelect s).link.given = s.link.given := rfl
@[simp] theorem releaseSelect_link_lastSent (s : State) : (releaseSelect s).link.lastSent = s.link.lastSent := rfl
@[simp] theorem withHunt_link_requests (h : Hunt) (s : State) : (withHunt h s).link.requests = s.link.requests := rfl
@[simp] theorem withHunt_link_reserved (h : Hunt) (s : State) : (withHunt h s).link.reserved = s.link.reserved := rfl
@[simp] theorem withHunt_link_filled (h : Hunt) (s : State) : (withHunt h s).link.filled = s.link.filled := rfl
@[simp] theorem withHunt_link_resetAwaits (h : Hunt) (s : State) : (withHunt h s).link.resetAwaits = s.link.resetAwaits := rfl
@[simp] theorem withHunt_link_port (h : Hunt) (s : State) : (withHunt h s).link.port = s.link.port := rfl
@[simp] theorem withHunt_link_sent (h : Hunt) (s : State) : (withHunt h s).link.sent = s.link.sent := rfl
@[simp] theorem withHunt_link_givenBits (h : Hunt) (s : State) : (withHunt h s).link.givenBits = s.link.givenBits := rfl
@[simp] theorem withHunt_link_given (h : Hunt) (s : State) : (withHunt h s).link.given = s.link.given := rfl
@[simp] theorem withHunt_link_lastSent (h : Hunt) (s : State) : (withHunt h s).link.lastSent = s.link.lastSent := rfl
@[simp] theorem answer_link_port (tag kind : Byte) (a : Status × ReplyFields) (s : State) : (answer tag kind a s).link.port = s.link.port := rfl
@[simp] theorem answer_link_sent (tag kind : Byte) (a : Status × ReplyFields) (s : State) : (answer tag kind a s).link.sent = s.link.sent := rfl
@[simp] theorem answer_link_givenBits (tag kind : Byte) (a : Status × ReplyFields) (s : State) : (answer tag kind a s).link.givenBits = s.link.givenBits := rfl
@[simp] theorem answer_link_given (tag kind : Byte) (a : Status × ReplyFields) (s : State) : (answer tag kind a s).link.given = s.link.given := rfl
@[simp] theorem answer_link_lastSent (tag kind : Byte) (a : Status × ReplyFields) (s : State) : (answer tag kind a s).link.lastSent = s.link.lastSent := rfl
@[simp] theorem noteGiven_link_given (b : Byte) (s : State) : (noteGiven b s).link.given = s.link.given ++ [b] := rfl
@[simp] theorem noteGiven_link_givenBits (b : Byte) (s : State) : (noteGiven b s).link.givenBits = s.link.givenBits := rfl
@[simp] theorem noteBit_link_givenBits (b : Bool) (s : State) : (noteBit b s).link.givenBits = s.link.givenBits ++ [b] := rfl
@[simp] theorem noteBit_link_given (b : Bool) (s : State) : (noteBit b s).link.given = s.link.given := rfl
@[simp] theorem clearGiven_link_given (s : State) : (clearGiven s).link.given = [] := rfl
@[simp] theorem clearGiven_link_givenBits (s : State) : (clearGiven s).link.givenBits = [] := rfl
@[simp] theorem withHunt_link_hunt (h : Hunt) (s : State) : (withHunt h s).link.hunt = h := rfl

@[simp] theorem withCommand_pins (s : State) (c : Instr) : (s.withCommand c).pins = s.pins := rfl
@[simp] theorem withCommand_link (s : State) (c : Instr) : (s.withCommand c).link = s.link := rfl
@[simp] theorem withCommand_flows (s : State) (c : Instr) : (s.withCommand c).flows = s.flows := rfl
@[simp] theorem withCommand_styles (s : State) (c : Instr) : (s.withCommand c).styles = s.styles := rfl
@[simp] theorem withCommand_store (s : State) (c : Instr) : (s.withCommand c).store = s.store := rfl
@[simp] theorem withCommand_comp (s : State) (c : Instr) : (s.withCommand c).comp = s.comp := rfl
@[simp] theorem withCommand_notes (s : State) (c : Instr) : (s.withCommand c).notes = s.notes := rfl
@[simp] theorem withCommand_planes (s : State) (c : Instr) : (s.withCommand c).planes = s.planes := rfl
@[simp] theorem withCommand_sched (s : State) (c : Instr) : (s.withCommand c).sched = s.sched := rfl
@[simp] theorem withCommand_lanes (s : State) (c : Instr) : (s.withCommand c).lanes = s.lanes := rfl
@[simp] theorem withCommand_notices (s : State) (c : Instr) : (s.withCommand c).notices = s.notices := rfl
@[simp] theorem withCommand_settings (s : State) (c : Instr) : (s.withCommand c).settings = s.settings := rfl

@[simp] theorem post_notices (b : NoticeBody) (s : State) :
    (post b s).notices = postNotice (if applied s 11 = 1 then some s.lanes.frameCount else none) b s.notices := rfl
@[simp] theorem answer_requests (tag kind : Byte) (a : Status × ReplyFields) (s : State) :
    (answer tag kind a s).link.requests = s.link.requests := rfl
@[simp] theorem answer_reserved (tag kind : Byte) (a : Status × ReplyFields) (s : State) :
    (answer tag kind a s).link.reserved = s.link.reserved := rfl
@[simp] theorem answer_filled (tag kind : Byte) (a : Status × ReplyFields) (s : State) :
    (answer tag kind a s).link.filled = s.link.filled ++ [⟨tag, kind, a.1, a.2⟩] := rfl
@[simp] theorem answer_hunt (tag kind : Byte) (a : Status × ReplyFields) (s : State) :
    (answer tag kind a s).link.hunt = s.link.hunt := rfl
@[simp] theorem answer_resetAwaits (tag kind : Byte) (a : Status × ReplyFields) (s : State) :
    (answer tag kind a s).link.resetAwaits = s.link.resetAwaits := rfl
@[simp] theorem withJob_started (j : Job) (s : State) : (withJob j s).comp.started = some j := rfl
@[simp] theorem withJob_path (j : Job) (s : State) : (withJob j s).comp.path = s.comp.path := rfl
@[simp] theorem withJob_retints (j : Job) (s : State) : (withJob j s).comp.retints = s.comp.retints := rfl
@[simp] theorem withJob_frames (j : Job) (s : State) : (withJob j s).comp.frames = s.comp.frames := rfl
@[simp] theorem withJob_commit (j : Job) (s : State) : (withJob j s).comp.commit = s.comp.commit := rfl
@[simp] theorem withJob_jobs (j : Job) (s : State) : (withJob j s).comp.jobs = s.comp.jobs := rfl
@[simp] theorem withFrame_started (i : Nat) (f : FrameRec) (c : Composition) : (withFrame i f c).started = c.started := rfl
@[simp] theorem withFrame_path (i : Nat) (f : FrameRec) (c : Composition) : (withFrame i f c).path = c.path := rfl
@[simp] theorem withFrame_retints (i : Nat) (f : FrameRec) (c : Composition) : (withFrame i f c).retints = c.retints := rfl
@[simp] theorem withFrame_commit (i : Nat) (f : FrameRec) (c : Composition) : (withFrame i f c).commit = c.commit := rfl
@[simp] theorem withFrame_jobs (i : Nat) (f : FrameRec) (c : Composition) : (withFrame i f c).jobs = c.jobs := rfl
@[simp] theorem withFrame_liveOrder (i : Nat) (f : FrameRec) (c : Composition) : (withFrame i f c).liveOrder = c.liveOrder := rfl
@[simp] theorem enqueueRetint_started (i g : Nat) (c : Composition) : (enqueueRetint i g c).started = c.started := rfl
@[simp] theorem enqueueRetint_path (i g : Nat) (c : Composition) : (enqueueRetint i g c).path = c.path := rfl
@[simp] theorem enqueueRetint_frames (i g : Nat) (c : Composition) : (enqueueRetint i g c).frames = c.frames := rfl
@[simp] theorem enqueueRetint_commit (i g : Nat) (c : Composition) : (enqueueRetint i g c).commit = c.commit := rfl
@[simp] theorem enqueueRetint_jobs (i g : Nat) (c : Composition) : (enqueueRetint i g c).jobs = c.jobs := rfl
@[simp] theorem releaseFrame_started (i : Nat) (c : Composition) : (releaseFrame i c).started = c.started := rfl
@[simp] theorem releaseFrame_path (i : Nat) (c : Composition) : (releaseFrame i c).path = c.path := rfl
@[simp] theorem releaseFrame_commit (i : Nat) (c : Composition) : (releaseFrame i c).commit = c.commit := rfl
@[simp] theorem releaseFrame_jobs (i : Nat) (c : Composition) : (releaseFrame i c).jobs = c.jobs := rfl
@[simp] theorem withRun_started (run : RetintRun) (c : Composition) : (withRun run c).started = c.started := rfl
@[simp] theorem withRun_path (run : RetintRun) (c : Composition) : (withRun run c).path = c.path := rfl
@[simp] theorem withRun_frames (run : RetintRun) (c : Composition) : (withRun run c).frames = c.frames := rfl
@[simp] theorem withRun_commit (run : RetintRun) (c : Composition) : (withRun run c).commit = c.commit := rfl
@[simp] theorem withRun_jobs (run : RetintRun) (c : Composition) : (withRun run c).jobs = c.jobs := rfl
@[simp] theorem withRun_liveOrder (run : RetintRun) (c : Composition) : (withRun run c).liveOrder = c.liveOrder := rfl

end Sys2Proof.Machine
end

