-- ==== Sys2Proof/Laws/Ops.lean ====
section
/-! SUPPORT. What the shared operations do, said once each: along lists, on settings, on notices, on frame records, on the
update queue, and what drawing leaves alone. -/

namespace Sys2Proof.Machine

/-! ### Lists with an index -/

theorem mapFrom_length {α : Type} (f : Nat → α → α) (n : Nat) (l : List α) : (mapFrom f n l).length = l.length := by
  induction l generalizing n with
  | nil => rfl
  | cons a l ih => simp [mapFrom, ih]

/-- A function of the index applied along a list, entry by entry. -/
theorem mapFrom_getElem? {α : Type} (f : Nat → α → α) (n : Nat) (l : List α) (i : Nat) :
    (mapFrom f n l)[i]? = (l[i]?).map (f (n + i)) := by
  induction l generalizing n i with
  | nil => simp [mapFrom]
  | cons a l ih =>
    cases i with
    | zero => simp [mapFrom]
    | succ i =>
      simp only [mapFrom, List.getElem?_cons_succ, ih]
      rw [show n + 1 + i = n + (i + 1) by omega]

/-- The indices that a search of the tile table answers. -/
theorem mem_tilesWhere (p : Nat → TileRec → Bool) (n : Nat) (l : List TileRec) (k : Nat) :
    k ∈ tilesWhere p n l ↔ ∃ i t, l[i]? = some t ∧ p (n + i) t = true ∧ k = n + i := by
  induction l generalizing n with
  | nil => simp [tilesWhere]
  | cons a l ih =>
    have key : (k ∈ tilesWhere p (n + 1) l) ↔ ∃ i t, (a :: l)[i + 1]? = some t ∧ p (n + (i + 1)) t = true ∧ k = n + (i + 1) := by
      rw [ih]
      simp only [List.getElem?_cons_succ, show ∀ i, n + 1 + i = n + (i + 1) from fun i => by omega]
    have split : (∃ i t, (a :: l)[i]? = some t ∧ p (n + i) t = true ∧ k = n + i)
        ↔ (p n a = true ∧ k = n) ∨ ∃ i t, (a :: l)[i + 1]? = some t ∧ p (n + (i + 1)) t = true ∧ k = n + (i + 1) := by
      constructor
      · rintro ⟨i, t, h⟩
        cases i with
        | zero =>
          simp only [List.getElem?_cons_zero, Option.some.injEq] at h
          obtain ⟨rfl, h1, h2⟩ := h
          exact .inl ⟨h1, h2⟩
        | succ i => exact .inr ⟨i, t, h⟩
      · rintro (⟨h1, h2⟩ | ⟨i, t, h⟩)
        · exact ⟨0, a, by simp, h1, h2⟩
        · exact ⟨i + 1, t, h⟩
    rw [split, ← key, tilesWhere]
    by_cases h : p n a = true
    · simp [h]
    · simp [h]

/-- The indices come in rising order. -/
theorem tilesWhere_sorted (p : Nat → TileRec → Bool) (n : Nat) (l : List TileRec) :
    (tilesWhere p n l).Pairwise (· < ·) := by
  induction l generalizing n with
  | nil => exact List.Pairwise.nil
  | cons a l ih =>
    unfold tilesWhere
    split
    · refine List.pairwise_cons.mpr ⟨fun k hk => ?_, ih (n + 1)⟩
      obtain ⟨i, t, _, _, rfl⟩ := (mem_tilesWhere p (n + 1) l k).mp hk
      omega
    · exact ih (n + 1)

/-- No tile satisfies a condition. -/
theorem tilesWhere_nil (p : Nat → TileRec → Bool) (l : List TileRec) :
    tilesWhere p 0 l = [] ↔ ∀ i t, l[i]? = some t → p i t = false := by
  rw [List.eq_nil_iff_forall_not_mem]
  constructor
  · intro h i t ht
    by_contra hp
    exact h i ((mem_tilesWhere p 0 l i).mpr ⟨i, t, ht, by simpa using hp, by omega⟩)
  · intro h k hk
    obtain ⟨i, t, ht, hp, rfl⟩ := (mem_tilesWhere p 0 l k).mp hk
    simp only [Nat.zero_add] at hp
    rw [h i t ht] at hp
    cases hp

/-- A search of the tile table is a filter of its indices. -/
theorem tilesWhere_eq_filter (p : Nat → TileRec → Bool) (l : List TileRec) :
    tilesWhere p 0 l = (List.range l.length).filter (fun i => p i (l.getD i TileRec.fresh)) := by
  have hs : ((List.range l.length).filter (fun i => p i (l.getD i TileRec.fresh))).Pairwise (· < ·) :=
    List.Pairwise.filter _ List.pairwise_lt_range
  refine List.Perm.eq_of_pairwise (fun a b _ _ h k => absurd h (by omega)) (tilesWhere_sorted p 0 l) hs ?_
  refine (List.perm_ext_iff_of_nodup ((tilesWhere_sorted p 0 l).imp (fun h => Nat.ne_of_lt h))
    (hs.imp (fun h => Nat.ne_of_lt h))).mpr (fun k => ?_)
  rw [mem_tilesWhere]
  simp only [List.mem_filter, List.mem_range, Nat.zero_add]
  constructor
  · rintro ⟨i, t, ht, hp, rfl⟩
    have hi : k < l.length := by
      by_contra hn
      rw [List.getElem?_eq_none (by omega)] at ht
      cases ht
    exact ⟨hi, by rw [List.getD_eq_getElem?_getD, ht]; exact hp⟩
  · rintro ⟨hk, hp⟩
    refine ⟨k, l.getD k TileRec.fresh, ?_, hp, rfl⟩
    rw [List.getD_eq_getElem?_getD, List.getElem?_eq_getElem hk]
    rfl

/-- No bound is found only of no tiles. -/
theorem boundTiles_none (cols : Nat) (l : List Nat) : boundTiles cols l = none ↔ l = [] := by
  cases l with
  | nil => simp [boundTiles]
  | cons i l =>
    simp only [boundTiles, reduceCtorEq, iff_false]
    split <;> simp

/-! ### Settings -/

/-- A setting after a boundary of a class: a pending value of that class applies, every other setting stays (R166). -/
theorem setting_applyClass (c : SettingClass) (t : Settings) (id : Nat) :
    setting (applyClass c t) id = if settingClass id = c then applyPending (setting t id) else setting t id := by
  unfold setting applyClass
  simp only [List.getD_eq_getElem?_getD, mapFrom_getElem?, Nat.zero_add]
  cases t.values[id]? with
  | none =>
    have hn : applyPending ⟨0, none⟩ = ⟨0, none⟩ := rfl
    simp [hn]
  | some v =>
    by_cases h : settingClass id = c
    · simp [h]
    · simp [h]

/-- With hold no boundary applies anything (R167). -/
theorem setting_applyBoundary (c : SettingClass) (t : Settings) (id : Nat) :
    setting (applyBoundary c t) id
      = if holding t = false ∧ settingClass id = c then applyPending (setting t id) else setting t id := by
  unfold applyBoundary
  by_cases h : holding t = true
  · simp [h]
  · simp only [h]
    rw [if_neg (by simp), setting_applyClass]
    simp

@[simp] theorem applyBoundary_power (c : SettingClass) (t : Settings) : (applyBoundary c t).power = t.power := by
  unfold applyBoundary applyClass
  split <;> rfl

@[simp] theorem applyBoundary_length (c : SettingClass) (t : Settings) :
    (applyBoundary c t).values.length = t.values.length := by
  unfold applyBoundary applyClass
  split
  · rfl
  · exact mapFrom_length _ _ _

/-! ### Notices -/

/-- A posting appends one record while there is room; at a full buffer it sets the lost mark (R159).  Either way it takes the
next sequence number. -/
theorem postNotice_cases (stamp : Option Nat) (b : NoticeBody) (n : NoticeBuffer) :
    (n.buffer.length < 64 ∧ (postNotice stamp b n).buffer = n.buffer ++ [⟨n.nextSeq, n.lost, stamp, b⟩]
        ∧ (postNotice stamp b n).lost = false
      ∨ 64 ≤ n.buffer.length ∧ (postNotice stamp b n).buffer = n.buffer ∧ (postNotice stamp b n).lost = true)
    ∧ (postNotice stamp b n).nextSeq = (n.nextSeq + 1) % 65536 := by
  unfold postNotice
  simp only [Config.noticeMax]
  split
  · rename_i h
    exact ⟨.inl ⟨h, rfl, rfl⟩, rfl⟩
  · rename_i h
    exact ⟨.inr ⟨by omega, rfl, rfl⟩, rfl⟩

/-! ### Frame records -/

/-- A released slot is FREE with its generation; no other slot changes (R56). -/
theorem frameAt_releaseFrame (slot i : Nat) (c : Composition) (h : slot < c.frames.length) :
    frameAt (releaseFrame slot c) i = if i = slot then FrameRec.vacant (frameAt c slot).gen else frameAt c i := by
  unfold frameAt releaseFrame
  simp only [List.getD_eq_getElem?_getD, List.getElem?_set]
  by_cases hi : slot = i
  · subst hi
    simp [h, frameAt]
  · have : ¬i = slot := fun e => hi e.symm
    simp [hi, this]

@[simp] theorem releaseFrame_length (slot : Nat) (c : Composition) :
    (releaseFrame slot c).frames.length = c.frames.length := by
  unfold releaseFrame
  simp

/-- A released record's slot is FREE with its generation; no other slot changes (R56). -/
theorem frameAt_releaseFrame_held (slot i : Nat) (c : Composition) (h : (frameAt c slot).state ≠ .free) :
    frameAt (releaseFrame slot c) i = if i = slot then FrameRec.vacant (frameAt c slot).gen else frameAt c i := by
  apply frameAt_releaseFrame
  by_contra hn
  apply h
  unfold frameAt
  rw [List.getD_eq_getElem?_getD, List.getElem?_eq_none (by omega)]
  rfl

/-- Releasing several held records frees exactly their slots (R56). -/
theorem releaseAll_spec (l : List Nat) (hl : l.Nodup) (c : Composition) (hc : ∀ i ∈ l, (frameAt c i).state ≠ .free) :
    (∀ i, frameAt (releaseAll l c) i = if i ∈ l then FrameRec.vacant (frameAt c i).gen else frameAt c i)
      ∧ (releaseAll l c).jobs = c.jobs ∧ (releaseAll l c).started = c.started ∧ (releaseAll l c).path = c.path
      ∧ (releaseAll l c).commit = c.commit ∧ (releaseAll l c).frames.length = c.frames.length := by
  induction l generalizing c with
  | nil => simp [releaseAll]
  | cons a l ih =>
    have hn := List.nodup_cons.mp hl
    have h1 := fun i => frameAt_releaseFrame_held a i c (hc a (by simp))
    have hk := ih hn.2 (releaseFrame a c) (by
      intro i hi
      rw [h1 i, if_neg (by rintro rfl; exact hn.1 hi)]
      exact hc i (by simp [hi]))
    refine ⟨fun i => ?_, hk.2.1, hk.2.2.1, hk.2.2.2.1, hk.2.2.2.2.1, hk.2.2.2.2.2.trans (releaseFrame_length a c)⟩
    show frameAt (releaseAll l (releaseFrame a c)) i = _
    rw [hk.1, h1 i]
    by_cases hi : i = a
    · subst hi
      simp [hn.1]
    · simp [hi]

/-- The number of RUNNING retint jobs is the same after a release (R56). -/
theorem dropRetints_running (slot gen : Nat) (l : List RetintEntry) :
    (dropRetints slot gen l).countP (fun e => e.run.isSome) = l.countP (fun e => e.run.isSome) := by
  unfold dropRetints
  induction l with
  | nil => rfl
  | cons e l ih =>
    by_cases h : (e.slot == slot && e.gen == gen && e.run.isNone) = true
    · have hn : e.run.isSome = false := by
        simp only [Bool.and_eq_true] at h
        simpa using h.2
      simp only [List.filter_cons, h, Bool.not_true, List.countP_cons, hn]
      simpa using ih
    · simp only [List.filter_cons, Bool.not_eq_true] at h ⊢
      simp only [h, Bool.not_false, if_true, List.map_cons, List.countP_cons]
      rw [ih]
      congr 1
      split <;> simp

/-! ### The update queue -/

/-- Queueing touches the queue and the next id alone, and keeps the queue within its places (R122, R123, R124). -/
theorem queueUpdate_frame (u : NewUpdate) (c : Scheduler) :
    (queueUpdate u c).1.tiles = c.tiles ∧ (queueUpdate u c).1.deghostMs = c.deghostMs
      ∧ (c.queue.length ≤ 24 → (queueUpdate u c).1.queue.length ≤ 24)
      ∧ (1 ≤ c.nextId ∧ c.nextId ≤ 65535 → 1 ≤ (queueUpdate u c).1.nextId ∧ (queueUpdate u c).1.nextId ≤ 65535) := by
  have ha : (appendUpdate u c).1.tiles = c.tiles ∧ (appendUpdate u c).1.deghostMs = c.deghostMs
      ∧ (c.queue.length ≤ 24 → (appendUpdate u c).1.queue.length ≤ 24)
      ∧ (1 ≤ c.nextId ∧ c.nextId ≤ 65535 → 1 ≤ (appendUpdate u c).1.nextId ∧ (appendUpdate u c).1.nextId ≤ 65535) := by
    unfold appendUpdate
    simp only [Config.updateQueueMax]
    split
    · refine ⟨rfl, rfl, fun _ => ?_, fun h => ?_⟩
      · simp only [List.length_append, List.length_singleton]
        omega
      · simp only [nextUpdateId]
        split <;> omega
    · refine ⟨rfl, rfl, fun _ => ?_, fun h => h⟩
      simp only [List.length_append, List.length_singleton, List.length_dropLast]
      omega
  unfold queueUpdate
  split
  · exact ha
  · simp only
    split
    · exact ⟨rfl, rfl, fun h => by simpa using h, fun h => h⟩
    · exact ha

/-! ### Drawing -/

/-- Nothing of a tile record changes but work-dirty, from clear to set. -/
def OnlyDirtied (old new : List TileRec) : Prop :=
  new.length = old.length
    ∧ ∀ (i : Nat) (a : TileRec), old[i]? = some a → new[i]? = some a ∨ new[i]? = some { a with workDirty := true }

theorem OnlyDirtied.refl (l : List TileRec) : OnlyDirtied l l := ⟨rfl, fun _ _ h => .inl h⟩

theorem OnlyDirtied.trans {a b c : List TileRec} (h : OnlyDirtied a b) (k : OnlyDirtied b c) : OnlyDirtied a c := by
  refine ⟨k.1.trans h.1, fun i t ht => ?_⟩
  rcases h.2 i t ht with h | h
  · exact k.2 i t h
  · rcases k.2 i _ h with k | k
    · exact .inr k
    · exact .inr k

/-- What drawing may do: levels of W, and work-dirty of tiles; all else stays (R104, R111). -/
def Drawn (s t : State) : Prop :=
  t = { s with planes := { s.planes with w := t.planes.w }, sched := { s.sched with tiles := t.sched.tiles } }
    ∧ (PlaneWf s.planes.w → PlaneWf t.planes.w) ∧ OnlyDirtied s.sched.tiles t.sched.tiles

theorem Drawn.refl (s : State) : Drawn s s := ⟨rfl, id, OnlyDirtied.refl _⟩

/-- Drawing changes the planes and the scheduler's tiles alone. -/
theorem Drawn.eq {s t : State} (h : Drawn s t) : t = { s with planes := t.planes, sched := t.sched } := by
  have h1 : t.planes = { s.planes with w := t.planes.w } := congrArg State.planes h.1
  have h2 : t.sched = { s.sched with tiles := t.sched.tiles } := congrArg State.sched h.1
  exact h.1.trans (by rw [← h1, ← h2])

theorem Drawn.trans {a b c : State} (h : Drawn a b) (k : Drawn b c) : Drawn a c := by
  refine ⟨?_, fun w => k.2.1 (h.2.1 w), h.2.2.trans k.2.2⟩
  have h1 := h.1
  have k1 := k.1
  rw [h1] at k1
  exact k1

theorem drawRect_drawn (r : PRect) (a : Nat → Nat → Bool) (f : Nat → Nat → Nat → Nat) (s : State) :
    Drawn s (drawRect r a f s) := by
  refine ⟨rfl, fun h => drawRect_wf r a f s h, mapFrom_length _ _ _, fun i t ht => ?_⟩
  unfold drawRect
  simp only [markTiles, mapFrom_getElem?, ht, Option.map_some]
  split
  · exact .inr rfl
  · exact .inl rfl

theorem foldl_drawn {α : Type} (f : State → α → State) (hf : ∀ s a, Drawn s (f s a)) (l : List α) (s : State) :
    Drawn s (l.foldl f s) := by
  induction l generalizing s with
  | nil => exact Drawn.refl s
  | cons a l ih => exact (hf s a).trans (ih (f s a))

theorem drawEntries_drawn (clip : PRect) (l : List DrawEntry) (s : State) : Drawn s (drawEntries clip l s) :=
  foldl_drawn _ (fun s _ => drawRect_drawn _ _ _ s) l s

theorem drawPiece_drawn (frame : FrameRec) (line : LineRec) (laid : List Laid) (s : State) (n : Note) :
    Drawn s (drawPiece frame line laid s n) := by
  unfold drawPiece
  simp only
  split <;> exact drawRect_drawn _ _ _ s

theorem drawLineOp_drawn (frame : FrameRec) (line : LineRec) (x : LineWork × State) (op : LineOp) :
    Drawn x.2 (drawLineOp frame line x op).2 := by
  cases op with
  | piece n => exact drawPiece_drawn frame line _ _ n
  | item n => exact drawEntries_drawn _ _ _

theorem foldl_drawLineOp_drawn (frame : FrameRec) (line : LineRec) (l : List LineOp) (x : LineWork × State) :
    Drawn x.2 (l.foldl (drawLineOp frame line) x).2 := by
  induction l generalizing x with
  | nil => exact Drawn.refl _
  | cons op l ih => exact (drawLineOp_drawn frame line x op).trans (ih _)

/-- What is left of a line's overlay draws and does nothing else (R95, R110). -/
theorem finishOverlayLine_drawn (frame : FrameRec) (line : LineRec) (w : LineWork) (s : State) :
    Drawn s (finishOverlayLine frame line w s).state := by
  simp only [finishOverlayLine]
  exact foldl_drawLineOp_drawn frame line w.ops ({ w with ops := [] }, s)

/-- One operation of a line's overlay draws and does nothing else (R104, R110). -/
theorem drawNextOp_drawn (frame : FrameRec) (line : LineRec) (w : LineWork) (s : State) :
    Drawn s (drawNextOp frame line w s).2 := by
  unfold drawNextOp
  split
  · exact Drawn.refl _
  · exact drawLineOp_drawn frame line ({ w with ops := _ }, s) _

/-- The overlay of a line draws and does nothing else (R95, R110). -/
theorem overlayLine_drawn (frame : FrameRec) (line : LineRec) (st : StyleStack) (notes : List Note) (s : State) :
    Drawn s (overlayLine frame line st notes s).state := finishOverlayLine_drawn _ _ _ _

/-- The overlay of a line is the same whether its operations are drawn at once or its next one is drawn first (R104). -/
theorem finishOverlayLine_drawNextOp (frame : FrameRec) (line : LineRec) (w : LineWork) (s : State) :
    finishOverlayLine frame line (drawNextOp frame line w s).1 (drawNextOp frame line w s).2
      = finishOverlayLine frame line w s := by
  rcases w with ⟨laid, stack, ops, missing, suppressed⟩
  cases ops with
  | nil => rfl
  | cons op rest => cases op <;> rfl

/-- A retint line draws and does nothing else (R98, R110). -/
theorem redrawLine_drawn (run : RetintRun) (line : LineRec) (s : State) : Drawn s (redrawLine run line s).state := by
  unfold redrawLine
  split
  · exact (drawRect_drawn _ _ _ s).trans ((drawEntries_drawn _ _ _).trans (finishOverlayLine_drawn _ _ _ _))
  · exact (drawEntries_drawn _ _ _).trans (finishOverlayLine_drawn _ _ _ _)
  · exact finishOverlayLine_drawn _ _ _ _

end Sys2Proof.Machine
end

