-- ==== Sys2Proof/Laws/Drawing.lean ====
section
/-! SUPPORT. The pixel law of a rectangle's operation, what clipping keeps, and which tiles an operation marks (R104, R105,
R107, R111). -/

namespace Sys2Proof.Machine

/-- Rows of a rectangle, one after another: a pixel inside takes its new level, every other pixel stays. -/
theorem planeGet_rows (f : Nat → Nat → Nat → Nat) (x w : Nat) (hxw : x + w ≤ 4096) (n : Nat) :
    ∀ (y0 : Nat) (p : Plane), PlaneWf p → ∀ X Y, X < 4096 →
      planeGet
          ((List.range' y0 n).foldl (fun q y => planeRow (fun k old => f (k - y * 4096) y old) w (planeKey x y) q) p)
          (planeKey X Y)
        = if x ≤ X ∧ X < x + w ∧ y0 ≤ Y ∧ Y < y0 + n then f X Y (planeGet p (planeKey X Y))
          else planeGet p (planeKey X Y) := by
  induction n with
  | zero => intro y0 p hp X Y hX; simp
  | succ n ih =>
    intro y0 p hp X Y hX
    rw [List.range'_succ, List.foldl_cons, ih _ _ (planeRow_wf _ _ _ _ hp) X Y hX, planeGet_planeRow _ _ _ _ hp]
    by_cases hY : Y = y0
    · subst hY
      have : (planeKey x Y ≤ planeKey X Y ∧ planeKey X Y < planeKey x Y + w) ↔ (x ≤ X ∧ X < x + w) := by
        unfold planeKey; omega
      simp only [this]
      rw [show planeKey X Y - Y * 4096 = X by unfold planeKey; omega]
      by_cases hh : x ≤ X ∧ X < x + w
      · rw [if_neg (by omega), if_pos hh, if_pos (by omega)]
      · rw [if_neg (by omega), if_neg hh, if_neg (by omega)]
    · rw [if_neg (show ¬(planeKey x y0 ≤ planeKey X Y ∧ planeKey X Y < planeKey x y0 + w) by unfold planeKey; omega)]
      by_cases hh : x ≤ X ∧ X < x + w ∧ y0 + 1 ≤ Y ∧ Y < y0 + 1 + n
      · rw [if_pos hh, if_pos (by omega)]
      · rw [if_neg hh, if_neg (by omega)]

/-- A rectangle of no columns changes nothing. -/
theorem planeRect_empty (r : PRect) (f : Nat → Nat → Nat → Nat) (p : Plane) (h : r.w = 0) : planeRect r f p = p := by
  unfold planeRect
  rw [h]
  generalize List.range' r.y r.h = l
  induction l with
  | nil => rfl
  | cons c l ih => simp only [List.foldl_cons, planeRow]; exact ih

/-- A rectangle's operation: its pixels take their new levels and every other pixel stays. -/
theorem pixelAt_planeRect (r : PRect) (f : Nat → Nat → Nat → Nat) (p : Plane) (hp : PlaneWf p)
    (hb : r.w = 0 ∨ r.x + r.w ≤ 4096) (x y : Nat) (hx : x < 4096) :
    pixelAt (planeRect r f p) x y
      = if r.x ≤ x ∧ x < r.x + r.w ∧ r.y ≤ y ∧ y < r.y + r.h then f x y (pixelAt p x y) else pixelAt p x y := by
  by_cases hw : r.w = 0
  · rw [planeRect_empty r f p hw, if_neg (by omega)]
  · unfold pixelAt planeRect
    exact planeGet_rows f r.x r.w (by omega) r.h r.y _ hp x y hx

/-- What a clipped span holds. -/
theorem mem_clipSpan (a : Int) (n lo hi x : Nat) :
    ((clipSpan a n lo hi).1 ≤ x ∧ x < (clipSpan a n lo hi).1 + (clipSpan a n lo hi).2)
      ↔ (lo ≤ x ∧ x < hi ∧ a ≤ x ∧ (x : Int) < a + n) := by
  unfold clipSpan
  simp only
  omega

/-- A clipped span that is not empty ends within its limits. -/
theorem clipSpan_stop (a : Int) (n lo hi : Nat) :
    (clipSpan a n lo hi).2 = 0 ∨ (clipSpan a n lo hi).1 + (clipSpan a n lo hi).2 ≤ hi := by
  unfold clipSpan
  simp only
  omega

/-- Some pixel of a rectangle, when every pixel counts. -/
theorem anyPixel_all (r : PRect) : anyPixel r (fun _ _ => true) = true ↔ 0 < r.w ∧ 0 < r.h := by
  unfold anyPixel
  simp only [List.any_eq_true, List.mem_range'_1]
  constructor
  · rintro ⟨y, h, x, h2, _⟩
    omega
  · intro h
    exact ⟨r.y, by omega, r.x, by omega, trivial⟩

/-- A tile record after an operation: marked when the tile holds an addressed pixel of the rectangle (R111). -/
theorem markTiles_getElem? (cols : Nat) (r : PRect) (a : Nat → Nat → Bool) (l : List TileRec) (i : Nat) :
    (markTiles cols r a l)[i]?
      = (l[i]?).map (fun t =>
          if anyPixel (clipRect r.x r.y r.w r.h (tilePixels (i % cols) (i / cols))) a then { t with workDirty := true }
          else t) := by
  unfold markTiles
  rw [mapFrom_getElem?, Nat.zero_add]

end Sys2Proof.Machine
end

