-- ==== Sys2Proof/Laws/Idle.lean ====
section
/-! SUPPORT. What an empty command queue can do: the timers, drawing, and the bookkeeping of the overlay under way. -/

namespace Sys2Proof.Machine

/-- What an overlay operation may do besides drawing: the composition it leaves belongs to the same holder, jobs and commit,
and each retint job to the same record (R47, R104). -/
def OverlayWork (s t : State) : Prop :=
  ∃ d : State, Drawn s d
    ∧ t = { d with comp := t.comp }
    ∧ t.comp.path = s.comp.path ∧ t.comp.commit = s.comp.commit ∧ t.comp.jobs = s.comp.jobs
    ∧ t.comp.liveOrder = s.comp.liveOrder ∧ t.comp.frames.length = s.comp.frames.length
    ∧ t.comp.retints.map (fun e => (e.slot, e.gen, e.run.isSome))
      = s.comp.retints.map (fun e => (e.slot, e.gen, e.run.isSome))
    ∧ t.comp.started.map (fun j => (j.spec, j.running, j.slot, j.phase))
      = s.comp.started.map (fun j => (j.spec, j.running, j.slot, j.phase))

theorem OverlayWork.refl (s : State) : OverlayWork s s :=
  ⟨s, Drawn.refl s, rfl, rfl, rfl, rfl, rfl, rfl, rfl, rfl⟩

theorem withRun_marks (run : RetintRun) (c : Composition) :
    (withRun run c).retints.map (fun e => (e.slot, e.gen, e.run.isSome))
      = c.retints.map (fun e => (e.slot, e.gen, e.run.isSome)) := by
  simp only [withRun, List.map_map]
  refine List.map_congr_left fun e _ => ?_
  simp only [Function.comp]
  split <;> simp_all

theorem ensureSnapshot_work (j : Job) (s : State) :
    ensureSnapshot j s = { s with comp := (ensureSnapshot j s).comp }
      ∧ (ensureSnapshot j s).comp = { s.comp with frames := (ensureSnapshot j s).comp.frames }
      ∧ (ensureSnapshot j s).comp.frames.length = s.comp.frames.length := by
  unfold ensureSnapshot
  simp only
  split
  · exact ⟨rfl, rfl, rfl⟩
  · exact ⟨rfl, rfl, by simp [withFrame]⟩

/-- An overlay operation draws and keeps its own account, and does nothing else (R95, R98, R104). -/
theorem overlayOp_work (s : State) : OverlayWork s (overlayOp s) := by
  unfold overlayOp
  split
  · unfold retintOp
    split
    · exact OverlayWork.refl s
    · split
      · unfold retintOverlayOp
        split
        · rename_i run _ _ line _ _ w _
          have h := drawNextOp_drawn run.frame line w s
          have hc : (drawNextOp run.frame line w s).2.comp = s.comp := by
            have := congrArg State.comp h.eq
            exact this
          refine ⟨_, h, rfl, ?_⟩
          simp only [withStage, hc]
          exact ⟨rfl, rfl, rfl, rfl, rfl, withRun_marks _ _, rfl⟩
        · exact OverlayWork.refl s
      · exact OverlayWork.refl s
  · rename_i j hj
    have hs : s.comp.started = some j := by
      unfold runningJob at hj
      cases hst : s.comp.started with
      | none => rw [hst] at hj; cases hj
      | some k =>
        rw [hst, Option.bind_some] at hj
        split at hj
        · exact hj
        · cases hj
    unfold jobOverlayOp
    split
    · obtain ⟨e1, e2, e3⟩ := ensureSnapshot_work j s
      simp only
      split
      · refine ⟨s, Drawn.refl s, e1, ?_⟩
        rw [e2]
        exact ⟨rfl, rfl, rfl, rfl, e3, rfl, rfl⟩
      · rename_i line _
        have h := drawNextOp_drawn (frameAt (ensureSnapshot j s).comp j.slot) line
          (jobLineWork j (frameAt (ensureSnapshot j s).comp j.slot) line (ensureSnapshot j s)) (ensureSnapshot j s)
        generalize drawNextOp _ _ _ _ = x at h
        have hx := h.1
        rw [e1] at hx
        refine ⟨{ s with
            planes := { s.planes with w := x.2.planes.w }, sched := { s.sched with tiles := x.2.sched.tiles } },
          ⟨rfl, ?_, ?_⟩, ?_, ?_⟩
        · have := h.2.1
          rw [e1] at this
          exact this
        · have := h.2.2
          rw [e1] at this
          exact this
        · simp only [withJob]
          rw [hx]
        · have hc : x.2.comp = (ensureSnapshot j s).comp := by
            have := congrArg State.comp h.eq
            exact this
          simp only [withJob, hc, hs]
          rw [e2]
          exact ⟨rfl, rfl, rfl, rfl, e3, rfl, rfl⟩
    · exact OverlayWork.refl s

/-- An idle step draws, lets the timers grow and keeps the overlay's account, and does nothing else. -/
theorem idle_work (s : State) : OverlayWork (tick s) (idle s) := overlayOp_work (tick s)

end Sys2Proof.Machine
end

