-- ==== Sys2Proof/Laws/Jobs.lean ====
section
/-! SUPPORT. Boundaries of the running job, slots of frame records, and where a new update finds its neighbour (R48, R49,
R123). -/

namespace Sys2Proof.Machine

theorem runningJob_eq {s : State} {j : Job} (h : s.comp.started = some j) (hr : j.running = true) :
    runningJob s = some j := by
  simp [runningJob, h, hr]

/-- No retint job waits. -/
theorem anyRetintWaiting_false {c : Composition} (h : ∀ e ∈ c.retints, e.run ≠ none) : anyRetintWaiting c = false := by
  rw [← Bool.not_eq_true]
  simp [anyRetintWaiting]
  exact h

/-- A retint job waits. -/
theorem anyRetintWaiting_true {c : Composition} (h : ∃ e ∈ c.retints, e.run = none) : anyRetintWaiting c = true := by
  simpa [anyRetintWaiting] using h

/-- A boundary at which nothing stops the job: it goes on. -/
theorem atBoundary_go (go : State → State) {s : State} {j : Job} (h : s.comp.started = some j)
    (ha : j.abortAsked = false) (hw : anyRetintWaiting s.comp = false) : atBoundary go s = go s := by
  simp [atBoundary, h, ha, hw]

/-- A boundary at which a retint job waits: the job is SUSPENDED. -/
theorem atBoundary_suspend (go : State → State) {s : State} {j : Job} (h : s.comp.started = some j)
    (ha : j.abortAsked = false) (hw : anyRetintWaiting s.comp = true) :
    atBoundary go s
      = { s with comp := { s.comp with started := some { j with running := false }, path := .free } } := by
  simp [atBoundary, h, ha, hw]

/-! ### Frame record slots -/

theorem mem_framesWhere (p : FrameRec → Bool) (c : Composition) (i : Nat) :
    i ∈ framesWhere p c ↔ i < 8 ∧ p (frameAt c i) = true := by
  simp [framesWhere, Config.frameSlots]

/-- The lowest FREE slot (R49). -/
theorem freeSlot_spec (c : Composition) (h : ∃ i, i < 8 ∧ (frameAt c i).state = .free) :
    ∃ k, freeSlot c = some k ∧ k < 8 ∧ (frameAt c k).state = .free ∧ ∀ i, i < k → (frameAt c i).state ≠ .free := by
  unfold freeSlot
  have hs : (framesWhere (fun f => f.state == .free) c).Pairwise (· < ·) := List.Pairwise.filter _ List.pairwise_lt_range
  obtain ⟨i, hi, hf⟩ := h
  have hm : i ∈ framesWhere (fun f => f.state == .free) c := (mem_framesWhere _ _ _).mpr ⟨hi, by simp [hf]⟩
  cases hL : framesWhere (fun f => f.state == .free) c with
  | nil => rw [hL] at hm; simp at hm
  | cons a L =>
    have ha := (mem_framesWhere (fun f => f.state == .free) c a).mp (by rw [hL]; simp)
    refine ⟨a, rfl, ha.1, by simpa using ha.2, fun i hi hfi => ?_⟩
    have : i ∈ framesWhere (fun f => f.state == .free) c := (mem_framesWhere _ _ _).mpr ⟨by omega, by simp [hfi]⟩
    rw [hL] at this hs
    rcases List.mem_cons.mp this with h | h
    · omega
    · have := (List.pairwise_cons.mp hs).1 i h
      omega

theorem frameAt_withFrame (k i : Nat) (f : FrameRec) (c : Composition) (h : k < c.frames.length) :
    frameAt (withFrame k f c) i = if i = k then f else frameAt c i := by
  unfold frameAt withFrame
  simp only [List.getD_eq_getElem?_getD, List.getElem?_set]
  by_cases hi : k = i
  · subst hi
    simp [h]
  · have : ¬i = k := fun e => hi e.symm
    simp [hi, this]

/-! ### The update queue -/

/-- No queued record overlaps or adjoins the rectangle. -/
theorem newestNear_none {r : TileRect} {l : List UpdateRec}
    (h : ∀ x ∈ l, tilesOverlap x.rect r = false ∧ tilesAdjoin x.rect r = false) : newestNear r l = none := by
  induction l with
  | nil => rfl
  | cons a l ih =>
    have := h a (by simp)
    simp [newestNear, ih (fun x hx => h x (by simp [hx])), this]

/-- The newest queued record that overlaps or adjoins the rectangle. -/
theorem newestNear_some {r : TileRect} {q : UpdateRec} {after : List UpdateRec}
    (h : ∀ x ∈ after, tilesOverlap x.rect r = false ∧ tilesAdjoin x.rect r = false)
    (hq : tilesOverlap q.rect r = true ∨ tilesAdjoin q.rect r = true) (before : List UpdateRec) :
    newestNear r (before ++ q :: after) = some before.length := by
  induction before with
  | nil =>
    simp only [List.nil_append, newestNear, newestNear_none h]
    rw [if_pos (by simpa using hq)]
    rfl
  | cons a l ih => simp [newestNear, ih]

end Sys2Proof.Machine
end

