-- ==== Sys2Proof/Laws/Lines.lean ====
section
/-! SUPPORT. What the two passes of a distribution give out (R72, R73), and the order of a line's pens (R75). -/

namespace Sys2Proof.Machine

theorem firstPass_length (q r i : Nat) (c : List Nat) : (firstPass q r i c).length = c.length := by
  induction c generalizing i with
  | nil => rfl
  | cons a c ih => simp [firstPass, ih]

/-- The first pass gives out no more than its even shares. -/
theorem firstPass_sum (q r i : Nat) (c : List Nat) :
    (firstPass q r i c).sum ≤ q * c.length + (min r (i + c.length) - i) := by
  induction c generalizing i with
  | nil => simp [firstPass]
  | cons a c ih =>
    have := ih (i + 1)
    simp only [firstPass, List.sum_cons, List.length_cons, Nat.mul_add]
    split <;> omega

/-- The first pass gives no gap more than its cap. -/
theorem firstPass_le (q r i : Nat) (c : List Nat) : ∀ p ∈ c.zip (firstPass q r i c), p.2 ≤ p.1 := by
  induction c generalizing i with
  | nil => simp [firstPass]
  | cons a c ih =>
    simp only [firstPass, List.zip_cons_cons, List.mem_cons]
    rintro p (rfl | h)
    · simp
    · exact ih _ p h

theorem secondPass_zero (l : List (Nat × Nat)) : (secondPass 0 l).2 = 0 := by
  induction l with
  | nil => rfl
  | cons a l ih => simp [secondPass, ih]

/-- The second pass: nothing is lost, no cap is passed, and something is left only when every cap is reached. -/
theorem secondPass_spec (l : List (Nat × Nat)) (left : Nat) (h : ∀ p ∈ l, p.2 ≤ p.1) :
    (secondPass left l).1.length = l.length
      ∧ (secondPass left l).1.sum + (secondPass left l).2 = left + (l.map Prod.snd).sum
      ∧ (∀ (i x : Nat) (p : Nat × Nat), l[i]? = some p → (secondPass left l).1[i]? = some x → x ≤ p.1)
      ∧ (0 < (secondPass left l).2 → (secondPass left l).1 = l.map Prod.fst) := by
  induction l generalizing left with
  | nil => simp [secondPass]
  | cons a l ih =>
    obtain ⟨c, e⟩ := a
    have hce : e ≤ c := h (c, e) (by simp)
    obtain ⟨i1, i2, i3, i4⟩ := ih (left - min left (c - e)) (fun p hp => h p (by simp [hp]))
    simp only [secondPass]
    refine ⟨by simp [i1], by simp only [List.sum_cons, List.map_cons]; omega, ?_, ?_⟩
    · intro i x p hp hx
      cases i with
      | zero => simp at hp hx; subst hp; simp; omega
      | succ i => simp at hp hx; exact i3 i x p hp hx
    · intro h0
      simp only [List.map_cons, i4 h0]
      have : left - min left (c - e) ≠ 0 := by
        intro h00
        rw [h00, secondPass_zero] at h0
        omega
      congr 1
      omega

/-- An amount distributed over caps: nothing is lost, no cap is passed, and something is left only when every cap is
reached (R72, R73). -/
theorem distribute_spec (amount : Nat) (caps : List Nat) (h : 1 ≤ caps.length) :
    (distribute amount caps).1.length = caps.length
      ∧ (distribute amount caps).1.sum + (distribute amount caps).2 = amount
      ∧ (∀ i x c : Nat, caps[i]? = some c → (distribute amount caps).1[i]? = some x → x ≤ c)
      ∧ (0 < (distribute amount caps).2 → (distribute amount caps).1 = caps) := by
  have hl := firstPass_length (amount / caps.length) (amount % caps.length) 0 caps
  have hs := firstPass_sum (amount / caps.length) (amount % caps.length) 0 caps
  have hle := firstPass_le (amount / caps.length) (amount % caps.length) 0 caps
  have hmod : amount % caps.length < caps.length := Nat.mod_lt _ h
  have hd := Nat.div_add_mod amount caps.length
  rw [Nat.mul_comm] at hd
  obtain ⟨s1, s2, s3, s4⟩ :=
    secondPass_spec _ (amount - (firstPass (amount / caps.length) (amount % caps.length) 0 caps).sum) hle
  rw [List.map_snd_zip (by omega)] at s2
  rw [List.map_fst_zip (by omega)] at s4
  unfold distribute
  refine ⟨by rw [s1]; simp [hl], by simp only; omega, ?_, s4⟩
  intro i x c hc hx
  have hi : i < caps.length := by
    by_contra hh
    rw [List.getElem?_eq_none (by omega)] at hc
    cases hc
  refine s3 i x (c, (firstPass (amount / caps.length) (amount % caps.length) 0 caps)[i]'(by omega)) ?_ hx
  rw [List.getElem?_eq_getElem (by simp [hl]; exact hi)]
  rw [List.getElem?_eq_getElem hi] at hc
  simp at hc ⊢
  exact hc

/-- No pen of a line lies before the first. -/
theorem layItems_pen (items : List Item) (pen : Nat) (gs : List Nat) : ∀ l ∈ layItems pen gs items, pen ≤ l.pen := by
  induction items generalizing pen gs with
  | nil => intro l h; simp [layItems] at h
  | cons a t ih =>
    intro l h
    cases a with
    | glyph g =>
      simp only [layItems, List.mem_cons] at h
      rcases h with rfl | h
      · exact Nat.le_refl _
      · have := ih _ _ l h
        omega
    | gap g =>
      simp only [layItems, List.mem_cons] at h
      rcases h with rfl | h
      · exact Nat.le_refl _
      · have := ih _ _ l h
        omega

end Sys2Proof.Machine
end

