-- ==== Sys2Proof/Laws/Link.lean ====
section
/-! SUPPORT. What the link does with a request, said once: where a presented request goes, how a decided request is answered,
and how a font request's reply is held and filled. -/

namespace Sys2Proof.Machine

/-- A place is FREE. -/
theorem freePlaces_pos {l : LinkUnit} (h : l.reserved + l.filled.length < 8) : 0 < freePlaces l := by
  unfold freePlaces
  simp only [Config.replyPlaces]
  omega

/-- No place is FREE. -/
theorem freePlaces_zero {l : LinkUnit} (h : 8 ≤ l.reserved + l.filled.length) : freePlaces l = 0 := by
  unfold freePlaces
  simp only [Config.replyPlaces]
  omega

/-- With the link open a request is handed over (R152). -/
theorem present_open {s : State} (h : LinkOpen s) (tag : Byte) (r : Request) :
    present tag r s = handKnown tag (kindByte r) (some r) s := by
  obtain ⟨h1, h2, h3, h4⟩ := h
  simp [present, h1, h2, h3, mayHandOver, running, freePlaces_pos h4]

/-- With the part ready a request reaches its owner (R152). -/
theorem present_ready {s : State} (h : Ready s) (tag : Byte) (r : Request) :
    present tag r s = ownerTakes tag (kindByte r) r s := by
  rw [present_open h.1]
  simp [handKnown, h.2]

/-- With the part ready and ACTIVE a request reaches its owner (R152). -/
theorem present_active {s : State} (h : ReadyActive s) (tag : Byte) (r : Request) :
    present tag r s = ownerTakes tag (kindByte r) r s :=
  present_ready ⟨h.1, by simp [h.2]⟩ tag r

/-- Where a request cannot be handed over at once it arrives as a frame does (R154). -/
theorem present_waits {s : State} (hr : s.pins.resetHeld = false)
    (h : s.link.requests ≠ [] ∨ s.link.resetAwaits = true ∨ 8 ≤ s.link.reserved + s.link.filled.length) (tag : Byte)
    (r : Request) : present tag r s = arrive ⟨tag, kindByte r, putRequest r⟩ s := by
  have hp : (s.link.requests.isEmpty && mayHandOver s) = false := by
    rcases h with h | h | h
    · simp [h]
    · simp [mayHandOver, h]
    · simp [mayHandOver, freePlaces_zero h]
  simp [present, hr, hp]

/-- A request while the part is held in reset is discarded (R171). -/
theorem present_held {s : State} (hr : s.pins.resetHeld = true) (tag : Byte) (r : Request) : present tag r s = s := by
  simp [present, hr]

/-- A decided request fills one place and nothing else (R152, R153). -/
theorem decided_eq (tag kind : Byte) (x : State × (Status × ReplyFields)) :
    decided tag kind x = replied tag kind x.2.1 x.2.2 x.1 := rfl

/-- A font request whose operation begins reserves a place (R27). -/
theorem decidedInTurn_begun {s : State} (h : s.store.held = []) (tag kind : Byte) :
    decidedInTurn tag kind (s, none) = reservedFor tag kind s := by
  simp [decidedInTurn, holdReply, fillDecided, splitDecided, h, reservedFor]

/-- A font request decided when nothing is held before it is answered at once (R27). -/
theorem decidedInTurn_answered {s : State} (h : s.store.held = []) (tag kind : Byte) (a : Status × ReplyFields) :
    decidedInTurn tag kind (s, some a) = replied tag kind a.1 a.2 s := by
  cases s with
  | mk pins link flows styles store comp notes planes sched lanes notices settings pending =>
    cases store
    cases link
    simp only at h
    subst h
    simp [decidedInTurn, holdReply, fillDecided, splitDecided, replied]

/-- A font request behind an undecided one waits in a RESERVED place (R27). -/
theorem decidedInTurn_waits {s : State} {e : HeldReply} {rest : List HeldReply} (h : s.store.held = e :: rest)
    (he : e.answer = none) (tag kind : Byte) (a : Option (Status × ReplyFields)) :
    decidedInTurn tag kind (s, a)
      = { s with
          link := { s.link with reserved := s.link.reserved + 1 }
          store := { s.store with held := s.store.held ++ [⟨tag, kind, a⟩] } } := by
  simp [decidedInTurn, holdReply, fillDecided, splitDecided, h, he]

/-- The store operation of the one held request ends: its place is filled (R27). -/
theorem endOperation_fills {s : State} (tag kind : Byte) (a : Status × ReplyFields)
    (h : s.store.held = [⟨tag, kind, none⟩]) (hr : s.link.reserved = 1) :
    endOperation a s
      = replied tag kind a.1 a.2
        { s with link := { s.link with reserved := 0 }, store := { s.store with op := none, held := [] } } := by
  simp [endOperation, fillDecided, splitDecided, h, decideHeld, replied, hr]

/-- Splitting the held replies loses none. -/
theorem splitDecided_length (l : List HeldReply) : (splitDecided l).1.length + (splitDecided l).2.length = l.length := by
  induction l with
  | nil => rfl
  | cons e l ih =>
    unfold splitDecided
    split
    · simp only [List.length_cons]
      omega
    · simp

/-- Deciding a held request keeps the number held. -/
theorem decideHeld_length (a : Status × ReplyFields) (l : List HeldReply) : (decideHeld a l).length = l.length := by
  induction l with
  | nil => rfl
  | cons e l ih =>
    unfold decideHeld
    split
    · rfl
    · simp [ih]

/-- The kind byte of a request is its kind. -/
theorem kindByte_toNat (r : Request) : (kindByte r).toNat = requestKind r := by
  cases r <;> rfl

/-- STATUS alone has STATUS's kind. -/
theorem kindByte_ne_status (r : Request) (h : r ≠ .status) : kindByte r ≠ 0x01#8 := by
  intro e
  have hk := congrArg BitVec.toNat e
  rw [kindByte_toNat] at hk
  cases r <;> first | exact h rfl | cases hk

/-! ### The port (R147, R153) -/

/-- The bits of a byte make the byte. -/
theorem byteOfBits_bitsOfByte (b : Byte) : byteOfBits (bitsOfByte b) = b := by
  revert b
  decide +kernel

/-- A clock that leaves the exchange unfinished: one bit taken, one bit given (R147). -/
theorem clockBit_goes_on {s : State} (h : s.link.port.bits.length < 7) (bit : Bool) :
    clockBit bit s
      = { s with
          link :=
            { s.link with
              port := ⟨s.link.port.bits ++ [bit], some (outgoing s.link)⟩
              givenBits :=
                s.link.givenBits ++ [(outByte (outgoing s.link) s.link).getMsbD s.link.port.bits.length] } } := by
  have h8 : s.link.port.bits.length + 1 < 8 := by omega
  simp [clockBit, h8, noteBit]

/-- The eighth clock completes the exchange (R147). -/
theorem clockBit_completes {s : State} (h : 7 ≤ s.link.port.bits.length) (bit : Bool) :
    clockBit bit s
      = exchange (outgoing s.link) (byteOfBits (s.link.port.bits ++ [bit]))
        (noteBit ((outByte (outgoing s.link) s.link).getMsbD s.link.port.bits.length) s) := by
  have h8 : ¬s.link.port.bits.length + 1 < 8 := by omega
  simp [clockBit, h8]

/-- Eight clocks between exchanges are one exchange of the byte they carry, most significant bit first, and they give the
bits of the outbound byte in the same order (R147). -/
theorem portEvent_byte {s : State} (h : s.link.port.bits = []) (b : Byte) :
    portEvent s (.byte b)
      = exchange (outgoing s.link) b
        { s with
          link := { s.link with givenBits := s.link.givenBits ++ bitsOfByte (outByte (outgoing s.link) s.link) } } := by
  obtain ⟨x0, x1, x2, x3, x4, x5, x6, x7, hb⟩ :
      ∃ x0 x1 x2 x3 x4 x5 x6 x7, bitsOfByte b = [x0, x1, x2, x3, x4, x5, x6, x7] := ⟨_, _, _, _, _, _, _, _, rfl⟩
  have hx := byteOfBits_bitsOfByte b
  rw [hb] at hx
  simp only [portEvent, hb, List.foldl]
  simp [clockBit, noteBit, h, outgoing, hx, outByte, exchange, bitsOfByte, List.range, List.range.loop]

/-- What a completed exchange does: the inbound byte is received, then the outbound byte is given (R147). -/
theorem exchange_eq (o : Outgoing) (b : Byte) (s : State) :
    exchange o b s = giveByte o (receiveByte { s with link := { s.link with port := Port.idle } } b) := rfl

/-- With no reply to send an exchange gives fill (R153). -/
theorem giveByte_fill (s : State) : giveByte .fill s = noteGiven 0x00#8 s := rfl

/-- A byte of a reply that is not its last (R153). -/
theorem giveByte_next {s : State} {r : Reply} {rest : List Reply} (h : s.link.filled = r :: rest)
    (hs : s.link.sent + 1 < (replyFrame r).length) :
    giveByte .reply s
      = { s with
          link :=
            { s.link with
              given := s.link.given ++ [(replyFrame r).getD s.link.sent 0#8], sent := s.link.sent + 1 } } := by
  simp [giveByte, h, hs, noteGiven, outByte]

/-- The last byte of a reply (R153, R156). -/
theorem giveByte_last {s : State} {r : Reply} {rest : List Reply} (h : s.link.filled = r :: rest)
    (hs : (replyFrame r).length ≤ s.link.sent + 1) :
    giveByte .reply s = finishReply r rest (noteGiven ((replyFrame r).getD s.link.sent 0#8) s) := by
  simp [giveByte, h, Nat.not_lt.mpr hs, outByte]

/-- REPLY_SENT is the clocks that the earliest filled reply still takes (R153). -/
theorem replySent_clocks {s : State} {r : Reply} {rest : List Reply} (h : s.link.filled = r :: rest) :
    replySent s = portEvents (List.replicate (owedClocks s.link r) (.clock false)) s := by
  simp [replySent, h]

/-- Eight low clocks are a zero byte (R147). -/
theorem low_clocks_are_a_zero_byte (s : State) :
    (List.replicate 8 (PortEvent.clock false)).foldl portEvent s = portEvent s (.byte 0#8) := by
  have h : bitsOfByte 0#8 = List.replicate 8 false := by decide
  simp only [portEvent, h, ← List.map_replicate, List.foldl_map]

/-- Low clocks by the byte are zero bytes (R147). -/
theorem low_clocks_are_zero_bytes (n : Nat) (s : State) :
    portEvents (List.replicate (8 * n) (.clock false)) s = portEvents (List.replicate n (.byte 0#8)) s := by
  have h : ∀ t : State, (List.replicate 8 (PortEvent.clock false)).foldl portEvent t = portEvent t (.byte 0#8) :=
    low_clocks_are_a_zero_byte
  unfold portEvents
  generalize portEvent = f at h ⊢
  generalize clearGiven s = t
  induction n generalizing t with
  | zero => rfl
  | succ n ih =>
    rw [Nat.mul_succ, Nat.add_comm, List.replicate_add, List.foldl_append, h, ih]
    rfl

end Sys2Proof.Machine
end

