-- ==== Sys2Proof/Laws/PerInstr.lean ====
section
/-! SUPPORT. For each command: the kind of the request it presents, if it presents one, is in Table 9-3, and the kind byte
of its frame carries that kind. -/

namespace Sys2Proof.Laws.Kinds

open Sys2Proof.Machine

/-- A command that presents a request presents one of a known kind, and its kind byte is that kind (Table 9-3, R152). -/
def Statement (i : Instr) : Prop :=
  ∀ tag r, i.asRequest = some (tag, r) →
    knownKinds.contains (requestKind r) = true ∧ (kindByte r).toNat = requestKind r

/-- Every request is of a known kind. -/
theorem request_known (r : Request) : knownKinds.contains (requestKind r) = true := by cases r <;> rfl

/-- The statement holds whatever the command. -/
theorem of_any (i : Instr) : Statement i := fun _ r _ => ⟨request_known r, kindByte_toNat r⟩

theorem frameReceived (events : List PortEvent) : Statement (.frameReceived events) := of_any _
theorem handOver : Statement (.handOver) := of_any _
theorem replySent : Statement (.replySent) := of_any _
theorem status (tag : Byte) : Statement (.status tag) := of_any _
theorem reset (tag : Byte) : Statement (.reset tag) := of_any _
theorem set (tag : Byte) (id value : Nat) : Statement (.set tag id value) := of_any _
theorem get (tag : Byte) (id : Nat) : Statement (.get tag id) := of_any _
theorem activate (tag : Byte) : Statement (.activate tag) := of_any _
theorem standby (tag : Byte) : Statement (.standby tag) := of_any _
theorem setTemperature (tag : Byte) (degrees : Int) : Statement (.setTemperature tag degrees) := of_any _
theorem readNotices (tag : Byte) (max : Nat) : Statement (.readNotices tag max) := of_any _
theorem clearNotices (tag : Byte) : Statement (.clearNotices tag) := of_any _
theorem flowAppend (tag : Byte) (slot : Nat) (records : List RunRecord) : Statement (.flowAppend tag slot records) := of_any _
theorem flowClear (tag : Byte) (slot : Nat) : Statement (.flowClear tag slot) := of_any _
theorem flowInfo (tag : Byte) (slot : Nat) : Statement (.flowInfo tag slot) := of_any _
theorem styleDefine (tag : Byte) (id : Nat) (fields : StyleFields) : Statement (.styleDefine tag id fields) := of_any _
theorem styleRead (tag : Byte) (id : Nat) : Statement (.styleRead tag id) := of_any _
theorem fontBegin (tag : Byte) (slot : Nat) (header : FontHeader) : Statement (.fontBegin tag slot header) := of_any _
theorem glyphPut (tag : Byte) (slot : Nat) (start : Option Nat) (glyphs : List GlyphRec) : Statement (.glyphPut tag slot start glyphs) := of_any _
theorem fontEnd (tag : Byte) (slot : Nat) : Statement (.fontEnd tag slot) := of_any _
theorem fontEndComplete : Statement (.fontEndComplete) := of_any _
theorem fontDrop (tag : Byte) (slot : Nat) : Statement (.fontDrop tag slot) := of_any _
theorem fontDropComplete : Statement (.fontDropComplete) := of_any _
theorem fontLock (tag : Byte) (slot : Nat) : Statement (.fontLock tag slot) := of_any _
theorem fontLockComplete : Statement (.fontLockComplete) := of_any _
theorem fontCheck (tag : Byte) (slot : Nat) : Statement (.fontCheck tag slot) := of_any _
theorem fontCheckComplete : Statement (.fontCheckComplete) := of_any _
theorem fontList (tag : Byte) : Statement (.fontList tag) := of_any _
theorem glyphGet (tag : Byte) (slot index : Nat) : Statement (.glyphGet tag slot index) := of_any _
theorem protectRaise (tag : Byte) (boundary : Nat) : Statement (.protectRaise tag boundary) := of_any _
theorem protectRaiseComplete : Statement (.protectRaiseComplete) := of_any _
theorem storeWipe (tag : Byte) : Statement (.storeWipe tag) := of_any _
theorem storeWipeComplete : Statement (.storeWipeComplete) := of_any _
theorem writeEntryProgrammed : Statement (.writeEntryProgrammed) := of_any _
theorem compose (tag : Byte) (fields : ComposeFields) : Statement (.compose tag fields) := of_any _
theorem composeAbort (tag : Byte) (jobTag : Nat) : Statement (.composeAbort tag jobTag) := of_any _
theorem frameRelease (tag : Byte) (slot gen : Nat) : Statement (.frameRelease tag slot gen) := of_any _
theorem frameInfo (tag : Byte) (slot gen firstLine : Nat) : Statement (.frameInfo tag slot gen firstLine) := of_any _
theorem locate (tag : Byte) (slot gen x y : Nat) : Statement (.locate tag slot gen x y) := of_any _
theorem noteAdd (tag : Byte) (note : NoteFields) : Statement (.noteAdd tag note) := of_any _
theorem noteChange (tag : Byte) (id : Nat) (changes : NoteChanges) : Statement (.noteChange tag id changes) := of_any _
theorem noteRemove (tag : Byte) (id : Nat) : Statement (.noteRemove tag id) := of_any _
theorem noteList (tag : Byte) (afterId : Nat) : Statement (.noteList tag afterId) := of_any _
theorem commit (tag : Byte) (mode cls : Nat) (rect : Option TileRect) : Statement (.commit tag mode cls rect) := of_any _
theorem refresh (tag : Byte) (mode cls : Nat) (rect : Option TileRect) : Statement (.refresh tag mode cls rect) := of_any _
theorem queueInfo (tag : Byte) : Statement (.queueInfo tag) := of_any _
theorem rasterPathGrant : Statement (.rasterPathGrant) := of_any _
theorem replayEnd : Statement (.replayEnd) := of_any _
theorem pagePaperFill : Statement (.pagePaperFill) := of_any _
theorem lineSet : Statement (.lineSet) := of_any _
theorem glyphSpanDrawn : Statement (.glyphSpanDrawn) := of_any _
theorem overlayLineDone : Statement (.overlayLineDone) := of_any _
theorem retintLineRedrawn : Statement (.retintLineRedrawn) := of_any _
theorem latchTile : Statement (.latchTile) := of_any _
theorem panelFrameBoundary : Statement (.panelFrameBoundary) := of_any _
theorem laneFrame (lane : Nat) : Statement (.laneFrame lane) := of_any _
theorem dispatchScan : Statement (.dispatchScan) := of_any _
theorem updateCompletion (lane : Nat) : Statement (.updateCompletion lane) := of_any _
theorem deghostExpiry : Statement (.deghostExpiry) := of_any _
theorem temperatureStale : Statement (.temperatureStale) := of_any _
theorem resetPin : Statement (.resetPin) := of_any _
theorem resetPinRelease : Statement (.resetPinRelease) := of_any _
theorem startupScanEnd : Statement (.startupScanEnd) := of_any _
theorem abandonedFrame (second : Byte) : Statement (.abandonedFrame second) := of_any _
theorem driveHoldLevelChange (asserted : Bool) : Statement (.driveHoldLevelChange asserted) := of_any _

end Sys2Proof.Laws.Kinds
end

