-- ==== Sys2Proof/Tests/Slice0.lean ====
section
/-! SUPPORT. Tests of the model on small states, with values taken from the manual's tables and worked examples; the
well-formedness checks refusing ill-formed terms; and, for each statement with hypotheses, concrete values that meet them. -/

namespace Sys2Proof.Tests

set_option Elab.async false

open Sys2Proof.Machine

/-! ### Helpers -/

/-- The state a command leads to. -/
def after (c : Instr) (s : State) : State :=
  match exec c s with
  | .next t => t
  | .fault _ => s
  | .refused _ => s

/-- The status and the fields of the reply filled last. -/
def reply (c : Instr) (s : State) : Option (Status × ReplyFields) :=
  ((after c s).link.filled.getLast?).map (fun r => (r.status, r.fields))

/-- The bodies of the notices in the buffer. -/
def bodies (s : State) : List NoticeBody := s.notices.buffer.map (·.body)

/-- A part in STANDBY with nothing stored. -/
def standby : State := { State.reset with settings := { State.reset.settings with power := .standby } }

/-- A part in ACTIVE with a panel of 640 × 448: ten by seven tiles. -/
def active : State :=
  { State.reset with
    settings :=
      { State.reset.settings with
        values := (State.reset.settings.values.set 0 ⟨640, none⟩).set 1 ⟨448, none⟩
        power := .active
        lastActive := some (640, 448) }
    sched := { State.reset.sched with tiles := List.replicate 70 TileRec.fresh } }

/-- A part with one setting's values replaced. -/
def withSetting (id : Nat) (v : Setting) (s : State) : State :=
  { s with settings := { s.settings with values := s.settings.values.set id v } }

/-- A part with one tile replaced. -/
def withTile (i : Nat) (t : TileRec) (s : State) : State :=
  { s with sched := { s.sched with tiles := s.sched.tiles.set i t } }

/-- A glyph without a map. -/
def blank (advance : Nat) : GlyphRec := ⟨advance, 0, 0, 0, 0, []⟩

/-! ### Well-formedness: one ill-formed term for each check -/

theorem wf_accepts : (Instr.set 1#8 0 1650).wf = true := by decide +kernel
theorem wf_refuses_set_id : (Instr.set 1#8 256 0).wf = false := by decide +kernel
theorem wf_refuses_set_value : (Instr.set 1#8 0 65536).wf = false := by decide +kernel
theorem wf_refuses_temperature : (Instr.setTemperature 1#8 32768).wf = false := by decide +kernel
theorem wf_refuses_max : (Instr.readNotices 1#8 256).wf = false := by decide +kernel
theorem wf_refuses_glyph_index : (Instr.flowAppend 1#8 0 [.word [65536] false []]).wf = false := by decide +kernel
theorem wf_refuses_hyphen : (Instr.flowAppend 1#8 0 [.word [1] false [256]]).wf = false := by decide +kernel
theorem wf_refuses_push : (Instr.flowAppend 1#8 0 [.stylePush 256]).wf = false := by decide +kernel
theorem wf_refuses_known_code : (Instr.flowAppend 1#8 0 [.unknown 6]).wf = false := by decide +kernel
theorem wf_refuses_style :
    (Instr.styleDefine 1#8 0 ⟨none, none, some 128, none, none, none, none, none, none, none, none⟩).wf = false := by decide +kernel
theorem wf_refuses_name_tag : (Instr.fontBegin 1#8 0 ⟨[1#8], 1, 1, 0, 0, 0, 0⟩).wf = false := by decide +kernel
theorem wf_refuses_map : (Instr.glyphPut 1#8 0 none [⟨0, 0, 0, 2, 1, [15]⟩]).wf = false := by decide +kernel
theorem wf_refuses_coverage : (Instr.glyphPut 1#8 0 none [⟨0, 0, 0, 1, 1, [16]⟩]).wf = false := by decide +kernel
theorem wf_refuses_advance : (Instr.glyphPut 1#8 0 none [⟨4096, 0, 0, 0, 0, []⟩]).wf = false := by decide +kernel
theorem wf_refuses_compose : (Instr.compose 1#8 ⟨256, 0, ⟨0, 0⟩, 0, 0, 0, 16, 4, 0, 0⟩).wf = false := by decide +kernel
theorem wf_refuses_position : (Instr.compose 1#8 ⟨1, 0, ⟨0, 256⟩, 0, 0, 0, 16, 4, 0, 0⟩).wf = false := by decide +kernel
theorem wf_refuses_note_kind :
    (Instr.noteAdd 1#8 ⟨none, none, none, none, some (.unknown 2), none, none, none, none, none⟩).wf = false := by decide +kernel
theorem wf_refuses_note_change :
    (Instr.noteChange 1#8 1 ⟨none, none, none, none, none, none, .set 65536, .keep, none⟩).wf = false := by decide +kernel
theorem wf_refuses_tile_rect : (Instr.commit 1#8 0 0 (some ⟨0, 256, 0, 0⟩)).wf = false := by decide +kernel
theorem wf_refuses_generation : (Instr.frameRelease 1#8 0 65536).wf = false := by decide +kernel
theorem wf_refuses_lane : (Instr.laneFrame 8).wf = false := by decide +kernel
theorem wf_refuses_long_payload : (Instr.flowAppend 1#8 0 (List.replicate 1022 .space)).wf = false := by decide +kernel

/-! ### The link (spec/09) -/

/-- The two check values that spec/09 9.2 gives. -/
theorem test_check_value : crc16 [0x31#8, 0x32#8, 0x33#8, 0x34#8, 0x35#8, 0x36#8, 0x37#8, 0x38#8, 0x39#8] = 0x29B1#16 := by
  decide +kernel
theorem test_smallest_request : frameBytes 1#8 1#8 [] = [0xC3#8, 0#8, 0#8, 1#8, 1#8, 0xA7#8, 0xD0#8] := by decide +kernel

/-- The stray bytes of the worked example cost nothing but themselves. -/
theorem test_frame_received_after_stray_bytes :
    (after (.frameReceived ([0xC3#8, 0xC3#8, 0x05#8, 0xC3#8, 0#8, 0#8, 1#8, 1#8, 0xA7#8, 0xD0#8].map .byte)) standby).link.requests
      = [⟨1#8, 1#8, []⟩] := by decide +kernel
theorem test_frame_received_damaged :
    (after (.frameReceived ([0xC3#8, 0#8, 0#8, 1#8, 1#8, 0xA7#8, 0xD1#8].map .byte)) standby).link
      = { LinkUnit.reset with givenBits := List.replicate 56 false, given := List.replicate 7 0#8 } := by decide +kernel

/-- The bits 1100 0011, most significant first, are the sync byte, and fill is given meanwhile; after a cut exchange its fill
byte is given again though a reply waits by then, and the reply's bytes follow one by one (R147, R153). -/
theorem test_clocks_make_a_byte :
    (after (.frameReceived ([true, true, false, false, false, false, true, true].map .clock)) standby).link
      = { LinkUnit.reset with hunt := .length none, givenBits := List.replicate 8 false, given := [0#8] } := by decide +kernel
theorem test_cut_byte_given_again :
    (after (.frameReceived ([0#8, 0#8, 0#8, 0#8].map .byte))
        (after (.clearNotices 9#8) (after (.frameReceived [.clock true, .release]) standby))).link.given
      = [0#8, 0xC3#8, 3#8, 0#8] := by decide +kernel

/-- A reply begins with the bits 1100 0011 of the sync byte, of which a cut exchange gives the first ones (R147). -/
theorem test_cut_byte_gives_its_first_bits :
    (after (.frameReceived [.clock false, .clock true, .clock false, .release]) (after (.clearNotices 9#8) standby)).link.givenBits
      = [true, true, false] := by decide +kernel

/-- The exchanges of a reply of ten bytes take ten inbound bytes, the first with the bit of the exchange under way
(R147). -/
theorem test_reply_sent_takes_inbound_bytes :
    (after .replySent (after (.frameReceived [.clock true])
        (after (.clearNotices 9#8) { standby with link := { standby.link with hunt := .body 20 [20#8, 0#8] } }))).link.hunt
      = .body 20 ([20#8, 0#8, 0x80#8] ++ List.replicate 9 0#8) := by decide +kernel

/-- A length of 0x05C3 is abandoned, and its second byte is taken as length byte of the frame the first opens. -/
theorem test_abandoned_frame :
    (after (.abandonedFrame 0x05#8) { standby with link := { standby.link with hunt := .length (some 0xC3#8) } }).link.hunt
      = .length (some 0x05#8) := by decide +kernel

theorem test_hand_over_unknown_kind :
    reply .handOver { standby with link := { standby.link with requests := [⟨7#8, 0x0A#8, []⟩] } }
      = some (.unknownKind, .none) := by decide +kernel
theorem test_hand_over_malformed :
    reply .handOver { standby with link := { standby.link with requests := [⟨7#8, 0x04#8, []⟩] } }
      = some (.malformed, .none) := by decide +kernel

theorem test_reply_sent_gives_frame :
    (after .replySent (after (.clearNotices 9#8) standby)).link.lastSent
      = some (frameBytes 9#8 0x09#8 [0#8, 0#8, 0#8]) := by decide +kernel
theorem test_reply_sent_resets :
    (after .replySent (after (.reset 3#8) active)).settings.power = .starting := by decide +kernel

theorem test_status_in_starting : ((reply (.status 1#8) State.reset).map (·.1)) = some .ok := by decide +kernel
theorem test_reset_waits : (after (.reset 3#8) active).settings.power = .active := by decide +kernel
theorem test_waiting_reply_asserts_attn : (after (.clearNotices 9#8) standby).attn = true := by decide +kernel

/-! ### Settings and power (spec/11) -/

/-- 1650 becomes 1600 and 480 becomes 448 (R164). -/
theorem test_set_rounds_width : reply (.set 1#8 0 1650) standby = some (.ok, .setting 0 1600 .awaiting) := by decide +kernel
theorem test_set_rounds_height : reply (.set 1#8 1 480) standby = some (.ok, .setting 1 448 .awaiting) := by decide +kernel
theorem test_get_starting : reply (.get 1#8 4) State.reset = some (.starting, .none) := by decide +kernel
theorem test_get_default : reply (.get 1#8 4) standby = some (.ok, .settingInfo 4 .jobBoundary 16 none .applied) := by decide +kernel
theorem test_activate_fills :
    ((after (.activate 1#8) (withSetting 0 ⟨2560, some 640⟩ (withSetting 1 ⟨1920, some 448⟩ standby))).sched.tiles.length)
      = 70 := by decide +kernel
theorem test_activate_same_geometry :
    reply (.activate 1#8) { active with settings := { active.settings with power := .standby } }
      = some (.ok, .activated 640 448 12 false) := by decide +kernel
theorem test_standby_busy :
    reply (.standby 1#8) { active with sched := { active.sched with queue := [⟨1, ⟨0, 0, 0, 0⟩, .text, .normal, .commit, 1⟩] } }
      = some (.busy, .standbyBusy false false false true false) := by decide +kernel
theorem test_standby : (after (.standby 1#8) active).settings.power = .standby := by decide +kernel

/-- The reports of spec/08 8.7. -/
theorem test_temperature_low : reply (.setTemperature 1#8 (-5)) standby = some (.ok, .temperature 0 .b0) := by decide +kernel
theorem test_temperature_high : reply (.setTemperature 1#8 62) standby = some (.ok, .temperature 50 .b4) := by decide +kernel

/-! ### Notices (spec/10 10.6) -/

/-- A buffer whose 63 records have sequence numbers 200 to 262. -/
def nearlyFull : NoticeBuffer :=
  ⟨(List.range' 200 63).map (fun n => ⟨n, false, none, .temperatureStale 25 .b3⟩), 263, false⟩

/-- The 64th is stored, the 65th is dropped, and the next stored one carries LOST. -/
theorem test_notice_dropped :
    (post (.temperatureStale 25 .b3) (post (.temperatureStale 25 .b3) { standby with notices := nearlyFull })).notices.lost
      = true := by decide +kernel
theorem test_read_notices_clamps :
    (after (.readNotices 1#8 20) { standby with notices := nearlyFull }).notices.buffer.length = 47 := by decide +kernel
theorem test_clear_notices :
    reply (.clearNotices 1#8) { standby with notices := nearlyFull } = some (.ok, .cleared 63 false) := by decide +kernel

/-! ### Flows and styles (spec/01) -/

theorem test_flow_append :
    reply (.flowAppend 1#8 1 [.word [65, 66] false [1], .space]) standby = some (.ok, .flowLength 2) := by decide +kernel
theorem test_flow_append_malformed :
    reply (.flowAppend 1#8 1 [.space, .word [] false []]) standby = some (.malformed, .none) := by decide +kernel
theorem test_flow_clear :
    reply (.flowClear 1#8 1) { standby with flows := [[], [.space], [], []] } = some (.ok, .flowCleared 0 16384) := by decide +kernel
theorem test_flow_info :
    reply (.flowInfo 1#8 1) { standby with flows := [[.paraEnd], [.space], [], []] } = some (.ok, .flowInfo 1 16382) := by
  decide +kernel

/-- The clamping and ordering example of spec/01 1.4. -/
theorem test_style_define :
    (after (.styleDefine 1#8 6 ⟨none, none, some (-40), some 80, some 96, some 70, some 2, none, none, some 2, none⟩)
        standby).styles[6]?
      = some ⟨0, 0, -32, 80, 80, 80, 4, 0, 0, .center, 45⟩ := by decide +kernel
theorem test_style_read : reply (.styleRead 1#8 31) standby = some (.ok, .style Style.default) := by decide +kernel

/-! ### The Font Store (spec/02) -/

/-- The unlocked checksum of the example: 0x9014. -/
theorem test_unlocked_checksum :
    checksumUnlocked [(65, ⟨144, 1, 10, 3, 2, [0, 15, 0, 8, 15, 8]⟩), (66, ⟨128, -2, 0, 0, 0, []⟩)] = 0x9014 := by decide +kernel

/-- The header of "Serif 12". -/
def serif : FontHeader := ⟨[0x53#8, 0x65#8, 0x72#8, 0x69#8, 0x66#8, 0x20#8, 0x31#8, 0x32#8], 192, 28, 7, 100, 8, 8⟩

/-- The locked checksum of the example: 0x3E23. -/
theorem test_locked_checksum : checksumLocked serif = 0x3E23 := by decide +kernel

/-- A part whose slot 5 is in a given state with the header above, and whose banks hold the font with a checksum. -/
def withFont (v : FontState) (sum : Nat) (glyphs : List (Nat × GlyphRec)) (s : State) : State :=
  { s with
    store :=
      { s.store with
        slots := s.store.slots.set 5 ⟨v, false, false, some serif, 0, 0⟩
        nv := { s.store.nv with fonts := s.store.nv.fonts.set 5 (some ⟨serif, glyphs, v != .loading, false, sum, false⟩) } } }

/-- The same part with an operation in progress whose reply is held. -/
def operating (op : StoreOp) (s : State) : State :=
  { s with
    link := { s.link with reserved := 1 }
    store := { s.store with op := some op, held := [⟨1#8, 0x22#8, none⟩] } }

theorem test_font_begin : reply (.fontBegin 1#8 5 serif) standby = some (.ok, .capacity 114688) := by decide +kernel
theorem test_font_begin_protected :
    reply (.fontBegin 1#8 5 serif)
        { standby with store := { standby.store with nv := { standby.store.nv with boundary := 16 } } }
      = some (.protected_, .none) := by decide +kernel
theorem test_glyph_put :
    reply (.glyphPut 1#8 5 none [blank 100, blank 90]) (withFont .loading 0 [] standby)
      = some (.ok, .glyphPut 2 (114688 - 16)) := by decide +kernel
theorem test_glyph_put_beyond :
    reply (.glyphPut 1#8 5 (some 191) [blank 100, blank 90]) (withFont .loading 0 [] standby)
      = some (.badArgument, .none) := by decide +kernel
theorem test_write_entry_programmed :
    ((after .writeEntryProgrammed
        { standby with store := { standby.store with writeQueue := [.header 5 serif] } }).store.nv.fonts[5]?)
      = some (some ⟨serif, [], false, false, 0, false⟩) := by decide +kernel

/-- A reset cuts the programming of a header entry: the scan finds a font without an end mark and erases it (R29, R172). -/
theorem test_cut_header_is_erased :
    bodies (after .startupScanEnd (after .resetPinRelease (after .resetPin
        { standby with store := { standby.store with writeQueue := [.header 5 serif] } })))
      = [.started .pin 0 0 16 1 false 0 25 true] := by decide +kernel
theorem test_font_end_waits : (after (.fontEnd 1#8 5) (withFont .loading 0 [] standby)).link.reserved = 1 := by decide +kernel
theorem test_font_end_complete :
    reply .fontEndComplete (operating (.fontEnd 5 0) (withFont .loading 0 [(65, ⟨144, 1, 10, 3, 2, [0, 15, 0, 8, 15, 8]⟩),
        (66, ⟨128, -2, 0, 0, 0, []⟩)] standby)) = some (.ok, .fontEnd 0x9014 2) := by decide +kernel
theorem test_font_drop : (fontSlot (after (.fontDrop 1#8 5) (withFont .ready 0 [] standby)).store 5).state = .empty := by
  decide +kernel
theorem test_font_drop_complete :
    (nvFont (after .fontDropComplete (operating (.fontDrop 5 8 8) (withFont .ready 0 [] standby))).store 5) = none := by
  decide +kernel
theorem test_font_lock_ready : (after (.fontLock 1#8 5) (withFont .ready 0 [] standby)).store.op = some (.fontLock 5) := by
  decide +kernel
theorem test_font_lock_complete :
    reply .fontLockComplete (operating (.fontLock 5) (withFont .ready 0 [] standby)) = some (.ok, .fontLock 0x3E23) := by
  decide +kernel
theorem test_font_check_empty : reply (.fontCheck 1#8 5) standby = some (.notFound, .none) := by decide +kernel
theorem test_font_check_mismatch :
    bodies (after .fontCheckComplete (operating (.fontCheck 5) (withFont .ready 1 [] standby)))
      = [.fontDamaged 5 serif.nameTag false 1 0] := by decide +kernel
theorem test_font_list :
    ((reply (.fontList 1#8) (withFont .ready 7 [] standby)).map (·.1)) = some .ok := by decide +kernel
theorem test_glyph_get :
    reply (.glyphGet 1#8 5 65) (withFont .ready 0 [(65, blank 100)] standby) = some (.ok, .glyph 65 (blank 100)) := by decide +kernel
theorem test_glyph_get_absent :
    reply (.glyphGet 1#8 5 66) (withFont .ready 0 [(65, blank 100)] standby) = some (.notFound, .none) := by decide +kernel
theorem test_protect_raise_active : reply (.protectRaise 1#8 8) active = some (.notInStandby, .none) := by decide +kernel
theorem test_protect_raise_complete :
    (after .protectRaiseComplete (operating (.protectRaise 8) standby)).store.nv.boundary = 8 := by decide +kernel
theorem test_store_wipe_marks : (after (.storeWipe 1#8) (withFont .ready 0 [] standby)).store.nv.wipeMark = true := by decide +kernel
theorem test_store_wipe_complete :
    (after .storeWipeComplete (operating .storeWipe (withFont .ready 0 [] standby))).store.nv = NvStore.delivered := by decide +kernel

/-- The scan erases a font without an end mark and finds a checksum that does not match. -/
theorem test_startup_scan_erases :
    bodies (after .startupScanEnd (withFont .loading 0 [] State.reset)) = [.started .pin 0 0 16 1 false 0 25 true] := by decide +kernel
theorem test_startup_scan_damaged :
    bodies (after .startupScanEnd (withFont .ready 1 [] State.reset)) = [.started .pin 0 1 15 0 false 0 25 true] := by decide +kernel

/-! ### Lines (spec/04) -/

/-- The distributions of the examples of spec/04 4.5: stretch, caps, a loose line, shrink. -/
theorem test_stretch : distribute 48 [48, 48, 48] = ([16, 16, 16], 0) := by decide +kernel
theorem test_caps : distribute 170 [48, 48, 100] = ([48, 48, 74], 0) := by decide +kernel
theorem test_loose : distribute 200 [48, 48] = ([48, 48], 104) := by decide +kernel
theorem test_shrink : distribute 40 [0, 60] = ([0, 40], 0) := by decide +kernel

/-- A font of 16 blank glyphs of the advances that the hyphenated line of spec/04 4.5 uses; glyph 3 is the hyphen. -/
def lineFont : FontHeader := { serif with glyphCount := 16, ascent := 24 }

def lineGlyphs : List (Nat × GlyphRec) :=
  [(0, blank 140), (1, blank 130), (2, blank 610), (3, blank 56), (4, blank 90), (5, blank 80), (6, blank 70),
    (7, blank 50), (8, blank 250), (9, blank 220)]

/-- The records of that example, the hyphen points of record 6 included. -/
def lineRecs : List RunRecord :=
  [.word [0, 0, 0, 0, 0] false [], .space, .word [1, 1, 1, 1] false [], .space, .word [2] false [], .space,
    .word [4, 5, 4, 6, 7, 7, 8, 9] false [3, 6]]

/-- Styles whose first names the font above and its hyphen glyph. -/
def lineStyles : List Style := List.replicate 32 { Style.default with font := 5, hyphenGlyph := 3 }

/-- The part with the font READY, the flow and the styles of the example. -/
def lineState : State :=
  { active with
    flows := [lineRecs, [], [], []]
    styles := lineStyles
    store :=
      { active.store with
        slots := active.store.slots.set 5 ⟨.ready, false, false, some lineFont, 0, 0⟩
        nv :=
          { active.store.nv with
            fonts := active.store.nv.fonts.set 5 (some ⟨lineFont, lineGlyphs, true, false, 0, false⟩) } } }

/-- The stack of a job in the example's style. -/
def lineStack : StyleStack := ⟨[{ Style.default with font := 5, hyphenGlyph := 3 }], none, none, 0, .lenient⟩

/-- The example's line, set in a column of 150 px as a line that is no paragraph's first. -/
def setExample : WorkingLine :=
  setLine ⟨lineRecs, 7, lineStyles, lineState.store, 2400, false⟩ 100 200 0 0 ⟨0, 0⟩ ⟨0, 0⟩ lineStack

theorem test_hyphenated_line :
    (setExample.record.ending, setExample.record.stop, setExample.record.finalWidth, setExample.natural,
        setExample.minimal, setExample.record.gapCount) = (.hyphen, ⟨6, 3⟩, 2400, 2338, 2290, 3) := by decide +kernel

/-- The line's record in a LIVE frame record of slot 3, generation 9, at column 100 and row 200 (spec/04 4.7). -/
def liveFrame : FrameRec :=
  { FrameRec.vacant 9 with
    state := .live, stop := ⟨6, 3⟩, rect := ⟨100, 200, 150, 64⟩, stack := lineStack, lines := [setExample.record] }

def locateState : State :=
  { lineState with comp := { lineState.comp with frames := lineState.comp.frames.set 3 liveFrame, liveOrder := [3] } }

theorem test_locate_glyph :
    reply (.locate 1#8 3 9 150 210) locateState = some (.ok, .located 0 ⟨0, 0⟩ ⟨6, 3⟩ .glyph ⟨2, 0⟩) := by decide +kernel
theorem test_locate_gap :
    reply (.locate 1#8 3 9 146 210) locateState = some (.ok, .located 0 ⟨0, 0⟩ ⟨6, 3⟩ .gap ⟨1, 0⟩) := by decide +kernel
theorem test_locate_hyphen :
    reply (.locate 1#8 3 9 248 210) locateState = some (.ok, .located 0 ⟨0, 0⟩ ⟨6, 3⟩ .hyphen ⟨6, 3⟩) := by decide +kernel
theorem test_locate_after :
    reply (.locate 1#8 3 9 250 210) locateState = some (.ok, .located 0 ⟨0, 0⟩ ⟨6, 3⟩ .after ⟨6, 3⟩) := by decide +kernel
theorem test_locate_no_band : reply (.locate 1#8 3 9 150 150) locateState = some (.notFound, .none) := by decide +kernel
theorem test_frame_info_generation : reply (.frameInfo 1#8 3 8 0) locateState = some (.notFound, .none) := by decide +kernel
theorem test_frame_info : ((reply (.frameInfo 1#8 3 9 0) locateState).map (·.1)) = some .ok := by decide +kernel
theorem test_frame_release :
    frameAt (after (.frameRelease 1#8 3 9) locateState).comp 3 = FrameRec.vacant 9 := by decide +kernel

/-- The levels of the tables of R107 and R89. -/
theorem test_glyph_levels :
    [glyphLevel 15 0 15, glyphLevel 15 0 8, glyphLevel 12 0 8, glyphLevel 7 0 8, glyphLevel 15 4 8, glyphLevel 3 4 15,
      glyphLevel 15 15 15] = [0, 7, 6, 4, 10, 3, 15] := by decide +kernel
theorem test_fill_levels :
    [fillLevel 15 4, fillLevel 12 4, fillLevel 7 4, fillLevel 15 8, fillLevel 3 1] = [12, 9, 6, 8, 3] := by decide +kernel

/-! ### Compose jobs and retints (spec/03, spec/05) -/

/-- A job of tag 5 over a frame of 32 × 40 pixels at (64, 64) on flow 0, started on slot 0, at a given place of its passes. -/
def jobAt (p : Phase) : Job :=
  { spec := ⟨5, 0, ⟨0, 0⟩, 0, ⟨64, 64, 32, 40⟩, 0, 0⟩, running := true, limit := 1, slot := 0, gen := 1, spanLength := 16
    paper := 15, stack := ⟨[Style.default], none, none, 0, .lenient⟩, phase := p, current := ⟨0, 0⟩, nextTop := 0
    stop := ⟨1, 0⟩, work := none, missing := 0, suppressed := 0, overlapped := 0, evicted := none, abortAsked := false }

/-- The job's record, with given lines. -/
def openedFrame (lines : List LineRec) : FrameRec :=
  { FrameRec.vacant 1 with
    state := .opened, rect := ⟨64, 64, 32, 40⟩, stack := ⟨[Style.default], none, none, 0, .lenient⟩, lines := lines
    snapshot := some [] }

/-- The part with that job, holding the path, and one word of two glyphs in its flow. -/
def jobState (p : Phase) (lines : List LineRec) : State :=
  { active with
    flows := [[.word [65, 66] false []], [], [], []]
    comp :=
      { active.comp with
        started := some (jobAt p), path := .composeJob, frames := active.comp.frames.set 0 (openedFrame lines) } }

/-- The job's one line. -/
def jobLine0 : WorkingLine := jobLine (jobState .lines []) (jobAt .lines)

theorem test_compose_clips :
    reply (.compose 1#8 ⟨5, 0, ⟨0, 0⟩, 0, 600, 400, 200, 200, 0, 0⟩) active
      = some (.ok, .compose 5 ⟨600, 400, 40, 48⟩) := by decide +kernel
theorem test_compose_exists :
    reply (.compose 1#8 ⟨5, 0, ⟨0, 0⟩, 0, 0, 0, 64, 64, 0, 0⟩) (jobState .fill []) = some (.exists_, .none) := by
  decide +kernel
theorem test_compose_abort_running :
    reply (.composeAbort 1#8 5) (jobState .fill []) = some (.ok, .jobState .running) := by decide +kernel
theorem test_compose_abort_absent : reply (.composeAbort 1#8 6) (jobState .fill []) = some (.notFound, .none) := by
  decide +kernel
theorem test_grant_starts_job :
    ((after .rasterPathGrant
        { active with comp := { active.comp with jobs := [(jobAt .replay).spec] } }).comp.started.map (·.gen)) = some 1 := by
  decide +kernel
theorem test_replay_end :
    ((after .replayEnd (jobState .replay [])).comp.started.map (·.phase)) = some .fill := by decide +kernel
theorem test_page_paper_fill :
    pixelAt (after .pagePaperFill (withSetting 5 ⟨8, none⟩
      { jobState .fill [] with comp := { (jobState .fill []).comp with started := some { jobAt .fill with paper := 8 } } })).planes.w
      95 103 = 8 := by decide +kernel
theorem test_line_set_counts_missing :
    ((after .lineSet (jobState .lines [])).comp.started.map (·.missing)) = some 2 := by decide +kernel

/-- A fallback box of an EMPTY font is 8 px wide and drawn from the row below the line's top (R42). -/
theorem test_span_draws_box :
    [pixelAt (after .glyphSpanDrawn (jobState (.drawing jobLine0 0) [])).planes.w 64 65,
      pixelAt (after .glyphSpanDrawn (jobState (.drawing jobLine0 0) [])).planes.w 65 66,
      pixelAt (after .glyphSpanDrawn (jobState (.drawing jobLine0 0) [])).planes.w 64 64] = [0, 15, 15] := by decide +kernel
theorem test_overlay_closes :
    bodies (after .overlayLineDone (jobState (.overlay 0) [jobLine0.record]))
      = [.composeDone 5 0 1 ⟨1, 0⟩ 1 0 0 0 0 0 0 none 0] := by decide +kernel

/-- A retint job at work on the record of a closed job. -/
def retintState1 : State :=
  { jobState .lines [] with
    comp :=
      { active.comp with
        path := .retintJob
        frames := active.comp.frames.set 0 { openedFrame [jobLine0.record] with state := .live, snapshot := none }
        retints :=
          [⟨0, 1, some ⟨0, 0, 0, .paper, 16, 15, 0, 0, false, { openedFrame [jobLine0.record] with state := .live, snapshot := none }⟩⟩] } }

theorem test_retint_ends : bodies (after .retintLineRedrawn retintState1) = [.retintDone 0 1 0 0 1 0 false] := by
  decide +kernel

/-- A note on flow 0 over the whole of the job's one word. -/
def fields1 : NoteFields :=
  ⟨some 7, some 0, some ⟨0, 0⟩, some ⟨1, 0⟩, some (.fill 4), none, none, none, none, none⟩

def note1 : Note := ⟨7, 0, ⟨0, 0⟩, ⟨1, 0⟩, .fill 4, 0, .none, none, none, []⟩

/-- The band fill and the span of a retint line as operations of their own; the overlay then begins from the notes as they
stand, and its piece is drawn while no command waits (R98, R99, R109, R113). -/
theorem test_retint_stages :
    (after .pagePaperFill retintState1).comp.retints.map (fun e => e.run.map (·.stage))
        = [some (.glyphs jobLine0.entries 0)]
      ∧ ((after .glyphSpanDrawn (after .pagePaperFill { retintState1 with notes := [note1] })).comp.retints.map (fun e =>
          e.run.map (fun r => match r.stage with
            | .overlay w => w.ops
            | _ => []))) = [some [.piece note1]]
      ∧ pixelAt (idle (after .glyphSpanDrawn (after .pagePaperFill { retintState1 with notes := [note1] }))).planes.w 66 64
        = 12 := by decide +kernel

/-! ### Notes (spec/05) -/

theorem test_note_add : reply (.noteAdd 1#8 fields1) retintState1 = some (.ok, .reached 1) := by decide +kernel
theorem test_note_add_exists :
    reply (.noteAdd 1#8 fields1) { standby with notes := [note1] } = some (.exists_, .none) := by decide +kernel
theorem test_note_change :
    reply (.noteChange 1#8 7 ⟨none, none, none, none, some 3, none, .keep, .keep, none⟩) { standby with notes := [note1] }
      = some (.ok, .noteChanged { note1 with ink := 3 } 0) := by decide +kernel
theorem test_note_remove : reply (.noteRemove 1#8 7) { standby with notes := [note1] } = some (.ok, .reached 0) := by
  decide +kernel
theorem test_note_list :
    reply (.noteList 1#8 0) { standby with notes := [{ note1 with id := 9 }, note1] }
      = some (.ok, .noteList 2 [note1, { note1 with id := 9 }] false) := by decide +kernel

/-! ### Commits, updates and lanes (spec/07, spec/08) -/

/-- The two records of spec/07 7.8. -/
def twoUpdates : Scheduler :=
  { active.sched with
    queue := [⟨60, ⟨0, 3, 0, 3⟩, .text, .normal, .commit, 1⟩, ⟨61, ⟨10, 12, 0, 2⟩, .swift, .prompt, .commit, 1⟩]
    nextId := 62 }

/-- The three updates queued in that example: two merge, one is appended. -/
theorem test_merge_adjoining :
    (queueUpdate ⟨⟨4, 5, 0, 1⟩, .text, .normal, .refresh⟩ twoUpdates).1.queue[0]?
      = some ⟨60, ⟨0, 5, 0, 3⟩, .text, .normal, .commit, 2⟩ := by decide +kernel
theorem test_newest_stops_search :
    (queueUpdate ⟨⟨6, 9, 0, 0⟩, .swift, .prompt, .commit⟩
        (queueUpdate ⟨⟨4, 5, 0, 1⟩, .text, .normal, .refresh⟩ twoUpdates).1).2 = 61 := by decide +kernel
theorem test_other_mode_appends :
    (queueUpdate ⟨⟨2, 7, 2, 2⟩, .clean, .normal, .refresh⟩
        (queueUpdate ⟨⟨6, 9, 0, 0⟩, .swift, .prompt, .commit⟩
          (queueUpdate ⟨⟨4, 5, 0, 1⟩, .text, .normal, .refresh⟩ twoUpdates).1).1).2 = 62 := by decide +kernel

theorem test_commit_whole_panel : reply (.commit 1#8 0 0 none) active = some (.ok, .tileRect ⟨0, 9, 0, 6⟩) := by
  decide +kernel
theorem test_commit_malformed : reply (.commit 1#8 3 0 none) active = some (.malformed, .none) := by decide +kernel
theorem test_refresh_nothing_newer : reply (.refresh 1#8 1 1 none) active = some (.ok, .refreshed none 0) := by decide +kernel
theorem test_refresh_rect :
    reply (.refresh 1#8 1 1 (some ⟨1, 99, 2, 2⟩)) active = some (.ok, .refreshed (some ⟨1, 9, 2, 2⟩) 1) := by decide +kernel
theorem test_queue_info : ((reply (.queueInfo 1#8) active).map (·.1)) = some .ok := by decide +kernel

/-- A latch over the whole panel with one tile work-dirty. -/
def latching (t : TileRec) : State :=
  withTile 12 t
    { active with
      comp := { active.comp with path := .latch, commit := .latching ⟨.swift, .prompt, ⟨0, 9, 0, 6⟩⟩ 0 [] 0 } }

theorem test_latch_copies :
    bodies (after .latchTile (latching { TileRec.fresh with workDirty := true }))
      = [.commitDone .swift .prompt ⟨0, 9, 0, 6⟩ 1 0 1] := by decide +kernel
theorem test_latch_defers :
    ((after .latchTile (latching { TileRec.fresh with workDirty := true, state := .flight, lane := some 0 })).sched.tiles[12]?.map
      (fun t => (t.state, t.deferredMode, t.deferredPrompt, t.workDirty))) = some (.flightStale, some .swift, true, true) := by
  decide +kernel

/-- The scan of spec/08 8.5, on record 71 alone: a tile at the ghost limit makes it CLEAN, 44 frames in B2. -/
def scanState : State :=
  withTile 1 { TileRec.fresh with inkAge := 12, glassKnown := true }
    (withTile 0 { TileRec.fresh with glassKnown := true }
      { active with
        sched := { active.sched with queue := [⟨71, ⟨0, 1, 0, 0⟩, .text, .normal, .commit, 1⟩] }
        lanes := { active.lanes with temperature := 18, scanDue := true } })

theorem test_scan_escalates :
    ((after .dispatchScan scanState).lanes.lanes.head?.map (fun l =>
      match l with
      | .free => none
      | .driving d => some (d.driven, d.escalated, d.frames))) = some (some (.clean, true, 44)) := by decide +kernel

/-- A part with lane 2 driving tile (0, 0) SWIFT, all frames driven. -/
def drive : Drive :=
  ⟨80, ⟨0, 0, 0, 0⟩, .swift, .swift, .prompt, .commit, 1, false, false, .b3, 6, 0, 0⟩

def drivingState (d : Drive) (t : TileRec) : State :=
  withTile 0 t { active with lanes := { active.lanes with temperature := 28, stale := false, lanes := active.lanes.lanes.set 2 (.driving d) } }

/-- Ink age 254 saturates at 255 after a SWIFT completion (spec/08 8.6). -/
theorem test_completion_saturates :
    ((after (.updateCompletion 2) (drivingState drive { TileRec.fresh with state := .flight, lane := some 2, inkAge := 254 })).sched.tiles[0]?.map
      (·.inkAge)) = some 255 := by decide +kernel
theorem test_completion_follow_up :
    ((after (.updateCompletion 2) (drivingState drive { TileRec.fresh with state := .flightStale, lane := some 2, deferredMode := some .text })).sched.queue)
      = [⟨1, ⟨0, 0, 0, 0⟩, .text, .normal, .followUp, 1⟩] := by decide +kernel
theorem test_boundary_owes_frame :
    (after .panelFrameBoundary (drivingState { drive with framesLeft := 6 } TileRec.fresh)).lanes.frameCount = 1 := by
  decide +kernel
theorem test_lane_frame :
    ((after (.laneFrame 2) (drivingState { drive with framesLeft := 6, framesDue := 1 } TileRec.fresh)).lanes.lanes[2]?)
      = some (.driving { drive with framesLeft := 5, framesDue := 0 }) := by decide +kernel
/-- A part with a worn tile, an interval of 30 minutes and an elapsed time. -/
def wornState (ms : Nat) : State :=
  withSetting 9 ⟨30, none⟩
    (withTile 3 { TileRec.fresh with inkAge := 3 } { active with sched := { active.sched with deghostMs := ms } })

theorem test_deghost_expiry :
    (after .deghostExpiry (wornState 1800000)).sched.queue = [⟨1, ⟨3, 3, 0, 0⟩, .clean, .normal, .deghost, 1⟩] := by
  decide +kernel

/-- A SET of the interval taken first restarts the timer, which does not expire then (R131). -/
theorem test_deghost_restarted :
    (after .deghostExpiry (after (.set 1#8 9 30) (wornState 1800000))).sched.queue = [] := by decide +kernel
/-- A part at 31 degrees with the stale state clear and an elapsed time. -/
def warmState (ms : Nat) : State :=
  { standby with lanes := { standby.lanes with stale := false, temperature := 31, staleMs := ms } }

theorem test_temperature_stale :
    bodies (after .temperatureStale (warmState 600000)) = [.temperatureStale 31 .b3] := by decide +kernel

/-- A report taken first restarts the timer: no notice is posted (R138). -/
theorem test_temperature_report_first :
    bodies (after .temperatureStale (after (.setTemperature 1#8 31) (warmState 600000))) = [] := by decide +kernel

/-! ### Pins -/

theorem test_reset_pin : (after .resetPin active).settings.power = .starting := by decide +kernel
theorem test_reset_pin_discards : after (.status 1#8) (after .resetPin active) = after .resetPin active := by decide +kernel
theorem test_reset_pin_release : (after .resetPinRelease (after .resetPin active)).pins.resetHeld = false := by decide +kernel
theorem test_drive_hold_stops_scan :
    (after .panelFrameBoundary (after (.driveHoldLevelChange true) active)).lanes.scanDue = false := by decide +kernel

/-! ### Values that meet the hypotheses of the statements -/

theorem standby_ready : Ready standby := by unfold Ready LinkOpen; decide +kernel
theorem active_ready : ReadyActive active := by unfold ReadyActive LinkOpen; decide +kernel
theorem active_any : Ready active := by unfold Ready LinkOpen; decide +kernel
theorem standby_font : FontReady standby := ⟨standby_ready, rfl⟩
theorem starting_open : LinkOpen State.reset := by unfold LinkOpen; decide +kernel

/-- A part with eight requests waiting. -/
def crowded (s : State) : State :=
  { s with link := { s.link with requests := List.replicate 8 ⟨1#8, 1#8, []⟩ } }

/-- A part with all eight places FILLED. -/
def filledUp (s : State) : State :=
  { s with link := { s.link with filled := List.replicate 8 ⟨1#8, 0x09#8, .ok, .cleared 0 false⟩ } }

/-- The overlay of the retint's line with one piece left, the run at that stage, and the part with it. -/
def work2 : LineWork := ⟨layLine retintState1 (openedFrame [jobLine0.record]) jobLine0.record, StyleStack.empty, [.piece note1], 0, 0⟩

def run2 : RetintRun :=
  ⟨0, 0, 0, .overlay work2, 16, 15, 0, 0, false, { openedFrame [jobLine0.record] with state := .live, snapshot := none }⟩

def retintState2 : State :=
  { retintState1 with comp := { retintState1.comp with retints := [⟨0, 1, some run2⟩] } }

/-- A part with a reply waiting. -/
def answered : State := after (.clearNotices 9#8) standby

theorem answered_port : PortWf answered := by
  refine ⟨by decide +kernel, fun h => absurd h (by decide +kernel), fun r rest h => ?_⟩
  rw [show answered.link.filled = [⟨9#8, 0x09#8, .ok, .cleared 0 false⟩] from rfl] at h
  cases h
  decide +kernel

theorem witness_EmptyQueuePassesTime :
    State.reset.pending = [] ∧ State.reset.settings.power = .starting ∧ standby.pending = []
      ∧ standby.settings.power ≠ .starting ∧ standby.lanes.staleStopped = false ∧ standby.lanes.stale = true
      ∧ (warmState 599999).lanes.staleMs < 600000 ∧ ¬(warmState 600000).lanes.staleMs < 600000
      ∧ standby.lanes.boundaryMs < applied standby 2 ∧ (wornState 1799999).settings.power = .active
      ∧ (wornState 1799999).sched.deghostMs < applied (wornState 1799999) 9 * 60000
      ∧ ¬(wornState 1800000).sched.deghostMs < applied (wornState 1800000) 9 * 60000
      ∧ standby.comp.started = none ∧ standby.comp.path ≠ .retintJob
      ∧ (jobState (.overlay 0) [jobLine0.record]).pending = []
      ∧ (jobState (.overlay 0) [jobLine0.record]).comp.started = some (jobAt (.overlay 0))
      ∧ (jobState (.overlay 0) [jobLine0.record]).comp.frames[0]? = some (openedFrame [jobLine0.record])
      ∧ (openedFrame [jobLine0.record]).snapshot = some []
      ∧ retintState2.pending = [] ∧ retintState2.comp.path = .retintJob ∧ retintState2.comp.started = none
      ∧ retintState2.comp.retints = [] ++ ⟨0, 1, some run2⟩ :: [] ∧ run2.stage = .overlay work2
      ∧ run2.frame.lines[run2.current]? = some jobLine0.record := by decide +kernel

theorem witness_RequestPayloadRoundTrip :
    (Request.flowAppend 255 (List.replicate 1021 .space)).wf = true ∧ (Request.set 255 65535).wf = true := by decide +kernel

theorem witness_FrameArrivesWhole :
    standby.pins.resetHeld = false ∧ standby.link.hunt = .hunt ∧ (List.replicate 1024 (1#8)).length ≤ 1024
      ∧ standby.link.requests.length < 8 ∧ standby.link.port = Port.idle ∧ PortWf answered ∧ NoResetReply answered.link
      ∧ answered.link.port = Port.idle ∧ answered.link.filled = ⟨9#8, 0x09#8, .ok, .cleared 0 false⟩ :: []
      ∧ (frameBytes 9#8 0x09#8 (replyPayload ⟨9#8, 0x09#8, .ok, .cleared 0 false⟩))[0]? = some 0xC3#8
      ∧ 0 + 1 < (frameBytes 9#8 0x09#8 (replyPayload ⟨9#8, 0x09#8, .ok, .cleared 0 false⟩)).length
      ∧ 1 ≤ [true].length ∧ (List.replicate 7 true).length < 8 ∧ (0x00#8 : Byte) ≠ 0xC3#8 :=
  ⟨rfl, rfl, by decide +kernel, by decide +kernel, rfl, answered_port,
    (by intro r h; rw [show answered.link.filled = [⟨9#8, 0x09#8, .ok, .cleared 0 false⟩] from rfl] at h
        rw [List.mem_singleton.mp h]; decide), rfl, rfl, by decide +kernel⟩

theorem witness_FrameDroppedOrOverrun :
    standby.pins.resetHeld = false ∧ standby.link.hunt = .hunt ∧ ([] : List Byte).length ≤ 1024
      ∧ 256 * (0xA7#8).toNat + (0xD1#8).toNat ≠ (crc16 (frameCore 1#8 1#8 [])).toNat
      ∧ (crowded standby).link.requests.length = 8 ∧ (crowded standby).link.port = Port.idle
      ∧ PortWf (crowded standby) ∧ NoResetReply (crowded standby).link
      ∧ (crowded standby).link.reserved + (crowded standby).link.filled.length < 8
      ∧ 8 ≤ (filledUp (crowded standby)).link.reserved + (filledUp (crowded standby)).link.filled.length
      ∧ (0x01#8).toNat + 256 * (0x04#8).toNat > 1024 :=
  ⟨rfl, rfl, by decide, by decide +kernel, rfl, rfl, ⟨by decide, fun _ => ⟨rfl, by decide⟩, fun _ _ h => by cases h⟩,
    (by intro r h; cases h), by decide +kernel⟩

theorem witness_HandOverChecksThenOwner :
    (crowded standby).link.requests = ⟨1#8, 1#8, []⟩ :: List.replicate 7 ⟨1#8, 1#8, []⟩
      ∧ (crowded standby).pins.resetHeld = false ∧ (crowded standby).link.resetAwaits = false
      ∧ (crowded standby).link.reserved + (crowded standby).link.filled.length < 8
      ∧ knownKinds.contains (0x0A#8).toNat = false ∧ knownKinds.contains (0x42#8).toNat = true
      ∧ readRequest (0x42#8).toNat [0#8] = none ∧ readRequest (0x42#8).toNat [] = some .queueInfo := by decide +kernel

theorem witness_RequestsWaitTheirTurn :
    (Instr.get 1#8 4).asRequest = some (1#8, .get 4) ∧ (after .resetPin standby).pins.resetHeld = true
      ∧ (filledUp standby).link.requests.length < 8
      ∧ 8 ≤ (filledUp standby).link.reserved + (filledUp standby).link.filled.length
      ∧ 8 ≤ (crowded standby).link.requests.length
      ∧ (crowded standby).link.reserved + (crowded standby).link.filled.length < 8
      ∧ 8 ≤ (filledUp (crowded standby)).link.requests.length
      ∧ (Request.get 4 ≠ .status) ∧ State.reset.settings.power = .starting := by decide +kernel

theorem witness_ReplySentFreesItsPlace :
    (filledUp standby).link.filled = ⟨1#8, 0x09#8, .ok, .cleared 0 false⟩ :: List.replicate 7 ⟨1#8, 0x09#8, .ok, .cleared 0 false⟩
      ∧ ¬((0x09#8 : Byte) = 0x02#8 ∧ Status.ok = .ok) ∧ standby.link.filled = []
      ∧ (after (.frameReceived [.clock true, .release]) standby).link.port.out = some .fill
      ∧ answered.link.filled = ⟨9#8, 0x09#8, .ok, .cleared 0 false⟩ :: [] ∧ answered.link.hunt = .hunt ∧ PortWf answered :=
  ⟨by decide +kernel, by decide, rfl, by decide +kernel, rfl, rfl, answered_port⟩

theorem witness_ResetsTakeEffect :
    Ready standby ∧ (after (.reset 3#8) standby).link.filled = [⟨3#8, 0x02#8, .ok, .none⟩]
      ∧ standby.store.writeQueue = [] ∧ (after (.fontBegin 1#8 5 serif) standby).store.writeQueue = .header 5 serif :: []
      ∧ (after .resetPin standby).pins.resetHeld = true ∧ (after .resetPin standby).link.filled = []
      ∧ (after .resetPin standby).link.port = Port.idle ∧ PortWf (after (.reset 3#8) standby) :=
  ⟨standby_ready, by decide +kernel, rfl, by decide +kernel, rfl, rfl, rfl, by decide +kernel,
    fun h => absurd h (by decide +kernel), fun r rest h => by
      rw [show (after (.reset 3#8) standby).link.filled = [⟨3#8, 0x02#8, .ok, .none⟩] from rfl] at h
      cases h
      decide +kernel⟩

theorem witness_StatusReports : LinkOpen State.reset ∧ LinkOpen active := ⟨starting_open, active_ready.1⟩

theorem witness_SetStoresByClass :
    Ready standby ∧ Ready active ∧ active.settings.power = .active ∧ standby.settings.power = .standby
      ∧ 6 < standby.settings.values.length ∧ (12 : Nat) < 13 ∧ (1 : Nat) < 2
      ∧ settingClass 3 = .jobBoundary ∧ settingClass 6 = .dispatchBoundary :=
  ⟨standby_ready, active_any, by decide +kernel⟩

theorem witness_GetReports :
    LinkOpen State.reset ∧ State.reset.settings.power = .starting ∧ LinkOpen standby ∧ standby.settings.power ≠ .starting :=
  ⟨starting_open, rfl, standby_ready.1, by decide +kernel⟩

theorem witness_ActivateAppliesAndFills :
    Ready standby ∧ standby.settings.values.length = 13 ∧ standby.settings.power = .standby ∧ Ready active
      ∧ active.settings.values.length = 13 ∧ active.settings.power = .active :=
  ⟨standby_ready, rfl, rfl, active_any, by decide +kernel, rfl⟩

/-- A part in ACTIVE with a retint job, a pending commit and a queued update. -/
def busyState : State :=
  { retintState1 with
    comp := { retintState1.comp with commit := .pending ⟨.text, .normal, ⟨0, 0, 0, 0⟩⟩, jobs := [(jobAt .replay).spec] }
    sched := { active.sched with queue := [⟨1, ⟨0, 0, 0, 0⟩, .text, .normal, .commit, 1⟩] }
    lanes := { active.lanes with lanes := active.lanes.lanes.set 2 (.driving drive) } }

theorem witness_StandbyUnlessBusy :
    ReadyActive busyState ∧ busyState.comp.jobs ≠ [] ∧ busyState.comp.retints ≠ [] ∧ busyState.comp.commit ≠ .empty
      ∧ busyState.sched.queue ≠ [] ∧ Lane.driving drive ∈ busyState.lanes.lanes ∧ ReadyActive active
      ∧ active.comp.jobs = [] ∧ active.comp.retints = [] ∧ active.sched.queue = [] ∧ LinkOpen standby
      ∧ standby.settings.power = .standby :=
  ⟨by unfold ReadyActive LinkOpen; decide +kernel, by decide +kernel, by decide +kernel, by decide +kernel,
    by decide +kernel, by decide +kernel, active_ready, rfl, rfl, rfl, standby_ready.1, rfl⟩

theorem witness_TemperatureIsReported :
    Ready standby ∧ (-1 : Int) < 0 ∧ (50 : Int) < 51 ∧ (0 : Int) ≤ 0 ∧ (50 : Int) ≤ 50 ∧ bandOf 4 = .b0 ∧ bandOf 5 = .b1
      ∧ bandOf 14 = .b1 ∧ bandOf 15 = .b2 ∧ bandOf 24 = .b2 ∧ bandOf 25 = .b3 ∧ bandOf 34 = .b3 ∧ bandOf 35 = .b4 :=
  ⟨standby_ready, by decide +kernel⟩

theorem witness_NoticesAreReadAndCleared :
    Ready { standby with notices := nearlyFull } ∧ nearlyFull.nextSeq < 65536 ∧ nearlyFull.buffer.length < 64
      ∧ 64 ≤ (post (.temperatureStale 25 .b3) { standby with notices := nearlyFull }).notices.buffer.length
      ∧ ({ nearlyFull with nextSeq := 65535 } : NoticeBuffer).nextSeq < 65536 :=
  ⟨by unfold Ready LinkOpen; decide +kernel, by decide +kernel⟩

theorem witness_FlowAppendAndInfo :
    Ready standby ∧ (3 : Nat) ≤ 3 ∧ (3 : Nat) < 4 ∧ recordMalformed (.word [] false []) = true
      ∧ (∀ r ∈ [RunRecord.space], recordMalformed r = false)
      ∧ (List.replicate 16384 RunRecord.space).length + (standby.flows.map List.length).sum ≤ 16384
      ∧ 16384 < (List.replicate 16385 RunRecord.space).length + (standby.flows.map List.length).sum :=
  ⟨standby_ready, by decide +kernel⟩

theorem witness_FlowClearReleasesFrames :
    Ready (jobState .fill []) ∧ (∃ j, (jobState .fill []).comp.started = some j ∧ j.spec.flow = 0)
      ∧ (∀ j, (jobState .fill []).comp.started = some j → j.spec.flow ≠ 3)
      ∧ (∀ j ∈ (jobState .fill []).comp.jobs, j.flow ≠ 3)
      ∧ (∀ e ∈ (jobState .fill []).comp.retints, ∀ r, e.run = some r → r.frame.flow ≠ 3) :=
  ⟨by unfold Ready LinkOpen; decide +kernel, ⟨_, rfl, rfl⟩, by intro j h; cases h; decide, by decide +kernel,
    by intro e h; cases h⟩

theorem witness_StyleRecordsAreSetAndRead :
    Ready standby ∧ standby.styles[31]? = some Style.default ∧ (31 : Nat) < 32 ∧ (3 : Nat) < 4 :=
  ⟨standby_ready, by decide +kernel⟩

theorem witness_FontBeginClaimsSlot :
    FontReady standby ∧ headerInRange serif = true ∧ (fontSlot standby.store 15).busy = false
      ∧ (fontSlot standby.store 15).state = .empty
      ∧ (∀ b, serif.firstBank ≤ b → b ≤ serif.lastBank → bankFree standby.store b = true)
      ∧ standby.store.nv.boundary ≤ serif.firstBank ∧ standby.store.writeQueue.length < 2
      ∧ raiseAbove standby.store serif.firstBank = false
      ∧ (fontSlot (withFont .ready 0 [] standby).store 5).state ≠ .empty
      ∧ bankFree (withFont .ready 0 [] standby).store 8 = false :=
  ⟨standby_font, by decide +kernel, by decide +kernel, by decide +kernel,
    fun b h1 h2 => by
      have : b = 8 := Nat.le_antisymm h2 h1
      subst this
      decide +kernel,
    by decide +kernel⟩

theorem witness_GlyphPutAssignsIndices :
    FontReady (withFont .loading 0 [] standby) ∧ [blank 100, blank 90] ≠ []
      ∧ (∀ g ∈ [blank 100, blank 90], glyphMalformed g = false)
      ∧ (fontSlot (withFont .loading 0 [] standby).store 5).busy = false
      ∧ (fontSlot (withFont .loading 0 [] standby).store 5).state = .loading
      ∧ (fontSlot (withFont .loading 0 [] standby).store 5).header = some serif
      ∧ (some 190).getD (fontSlot (withFont .loading 0 [] standby).store 5).cursor + 2 ≤ serif.glyphCount
      ∧ ([blank 100, blank 90].map storedSize).sum + (fontSlot (withFont .loading 0 [] standby).store 5).used ≤ capacityOf serif
      ∧ (withFont .loading 0 [] standby).store.writeQueue.length < 2 :=
  ⟨⟨by unfold Ready LinkOpen; decide +kernel, rfl⟩, by decide +kernel⟩

theorem witness_StoreOperationsBegin :
    FontReady (withFont .ready 0 [] standby) ∧ FontReady (withFont .loading 0 [] standby) ∧ FontReady active
      ∧ active.settings.power = .active
      ∧ (withFont .ready 0 [] standby).store.op = none
      ∧ (fontSlot (withFont .ready 0 [] standby).store 5).busy = false
      ∧ (fontSlot (withFont .ready 0 [] standby).store 5).state = .ready
      ∧ (fontSlot (withFont .loading 0 [] standby).store 5).state = .loading
      ∧ (withFont .ready 0 [] standby).store.nv.boundary ≤ firstBankOf (fontSlot (withFont .ready 0 [] standby).store 5)
      ∧ fontInUse (withFont .ready 0 [] standby) 5 = false
      ∧ (fontSlot (withFont .ready 0 [] standby).store 5).locked = false
      ∧ (∀ e ∈ dropUnstarted 5 (withFont .ready 0 [] standby).store.writeQueue, entrySlot e ≠ 5)
      ∧ (∃ e ∈ dropUnstarted 5 [WriteEntry.header 5 serif], entrySlot e = 5)
      ∧ (32 ∈ [0, 4, 8, 16, 32]) ∧ standby.store.nv.boundary < 32 ∧ loadingBelow standby.store 32 = false
      ∧ standby.store.writeQueue = [] :=
  ⟨⟨by unfold Ready LinkOpen; decide +kernel, rfl⟩, ⟨by unfold Ready LinkOpen; decide +kernel, rfl⟩, ⟨active_any, rfl⟩,
    by decide +kernel⟩

theorem witness_FontListAndGlyphGet :
    Ready (operating (.fontCheck 5) standby)
      ∧ (operating (.fontCheck 5) standby).store.held = ⟨1#8, 0x22#8, none⟩ :: [] ∧ FontReady (withFont .ready 0 [(65, blank 100)] standby)
      ∧ (fontSlot (withFont .ready 0 [(65, blank 100)] standby).store 5).header = some serif ∧ (191 : Nat) < serif.glyphCount
      ∧ currentGlyph (withFont .ready 0 [(65, blank 100)] standby).store 5 65 = some (blank 100)
      ∧ currentGlyph (withFont .ready 0 [(65, blank 100)] standby).store 5 191 = none
      ∧ (fontSlot (withFont .ready 0 [(65, blank 100)] standby).store 5).state = .ready
      ∧ (fontSlot (withFont .loading 0 [] standby).store 5).state = .loading
      ∧ (fontSlot standby.store 5).state = .empty
      ∧ nvFont (withFont .ready 7 [] standby).store 5 = some ⟨serif, [], true, false, 7, false⟩
      ∧ ((currentGlyphs (withFont .ready 0 [(65, blank 100)] standby).store 5).map Prod.fst).Nodup
      ∧ (∀ p ∈ currentGlyphs (withFont .ready 0 [(65, blank 100)] standby).store 5, p.1 < serif.glyphCount) :=
  ⟨by unfold Ready LinkOpen; decide +kernel, by decide +kernel, ⟨by unfold Ready LinkOpen; decide +kernel, rfl⟩, by decide +kernel⟩

theorem witness_WriteEntryIsProgrammed :
    (after (.fontBegin 1#8 5 serif) standby).store.writeQueue = [.header 5 serif]
      ∧ 5 < (after (.fontBegin 1#8 5 serif) standby).store.nv.fonts.length
      ∧ (withFont .loading 0 [] standby).store.nv.fonts[5]? = some (some ⟨serif, [], false, false, 0, false⟩) := by
  decide +kernel

theorem witness_FontOperationsComplete :
    (operating (.fontEnd 5 0) (withFont .loading 0 [] standby)).store.op = some (.fontEnd 5 0)
      ∧ (operating (.fontEnd 5 0) (withFont .loading 0 [] standby)).store.held = [⟨1#8, 0x22#8, none⟩]
      ∧ (operating (.fontEnd 5 0) (withFont .loading 0 [] standby)).link.reserved = 1
      ∧ 5 < (operating (.fontEnd 5 0) (withFont .loading 0 [] standby)).store.slots.length
      ∧ (operating (.fontLock 5) (withFont .ready 0 [] standby)).store.op = some (.fontLock 5)
      ∧ (fontSlot (operating (.fontLock 5) (withFont .ready 0 [] standby)).store 5).header = some serif
      ∧ (operating (.fontCheck 5) (withFont .ready 1 [] standby)).store.nv.fonts[5]?
        = some (some ⟨serif, [], true, false, 1, false⟩) := by decide +kernel

/-- A part whose boundary stands above the banks of its READY font. -/
def guarded : State :=
  { withFont .ready 0 [] standby with
    store :=
      { (withFont .ready 0 [] standby).store with nv := { (withFont .ready 0 [] standby).store.nv with boundary := 16 } } }

theorem guarded_wf : StoreWf guarded := by
  have fonts : ∀ i, i < 16 → nvFont guarded.store i = if i = 5 then some ⟨serif, [], true, false, 0, false⟩ else none := by
    decide +kernel
  have beyond : ∀ i, 16 ≤ i → nvFont guarded.store i = none := fun i hi => by
    have h : guarded.store.nv.fonts.length = 16 := rfl
    unfold nvFont
    rw [List.getD_eq_getElem?_getD, List.getElem?_eq_none (by omega)]
    rfl
  refine ⟨rfl, rfl, fun h => absurd h (by decide), fun i f hf hb => ?_, fun _ i hi => ?_, fun e h => ?_, fun i h hq => ?_, trivial⟩
  · by_cases hi : i < 16
    · rw [fonts i hi] at hf
      split at hf
      · cases hf
        rcases hb with hb | hb <;> cases hb
      · cases hf
    · rw [beyond i (by omega)] at hf
      cases hf
  · have slots : ∀ i, i < 16 → (fontSlot guarded.store i).state = if i = 5 then .ready else .empty := by decide +kernel
    have hs := slots i hi
    unfold SlotWf
    by_cases h5 : i = 5
    · subst h5
      exact ⟨⟨_, rfl, rfl, rfl, rfl⟩, fun e h => by cases h⟩
    · rw [if_neg h5] at hs
      rw [hs]
      exact .inr (.inr ⟨by rw [fonts i hi, if_neg h5], fun e h => by cases h⟩)
  · cases h
  · cases hq

theorem witness_EraseAndProtectComplete :
    (operating (.fontDrop 5 8 8) standby).store.held = [⟨1#8, 0x22#8, none⟩]
      ∧ (operating (.fontDrop 5 8 8) standby).link.reserved = 1
      ∧ (operating (.fontDrop 5 8 8) standby).store.op = some (.fontDrop 5 8 8)
      ∧ (∀ e ∈ (operating (.fontDrop 5 8 8) standby).store.writeQueue, entrySlot e ≠ 5)
      ∧ (operating .storeWipe standby).store.op = some .storeWipe
      ∧ (operating (.protectRaise 32) standby).store.op = some (.protectRaise 32)
      ∧ StoreWf guarded ∧ guarded.store.nv.wipeMark = false ∧ serif.firstBank < guarded.store.nv.boundary
      ∧ nvFont guarded.store 5 = some ⟨serif, [], true, false, 0, false⟩
      ∧ step { guarded with pending := [.fontLock 1#8 5] } = .next (after (.fontLock 1#8 5) guarded) :=
  ⟨by decide +kernel, by decide +kernel, by decide +kernel, by decide +kernel, by decide +kernel, by decide +kernel,
    guarded_wf, by decide +kernel, by decide +kernel, by decide +kernel, rfl⟩

theorem witness_ComposeQueuesJob :
    Ready standby ∧ standby.settings.power = .standby ∧ ReadyActive active
      ∧ clipRect 624 444 32 32 (panelRect active) = ⟨624, 444, 16, 4⟩
      ∧ clipRect 625 444 32 32 (panelRect active) = ⟨625, 444, 15, 4⟩
      ∧ (∀ j ∈ active.comp.jobs, j.tag ≠ 255) ∧ (∀ j, active.comp.started = some j → j.spec.tag ≠ 255)
      ∧ active.comp.jobs.length < 4 ∧ (∃ j, (jobState .fill []).comp.started = some j ∧ j.spec.tag = 5) :=
  ⟨standby_ready, rfl, active_ready, by decide +kernel, by decide +kernel, by decide +kernel, (by intro j h; cases h),
    by decide +kernel, ⟨_, rfl, rfl⟩⟩

theorem witness_ComposeAbortByState :
    Ready busyState ∧ busyState.comp.jobs.find? (fun j => j.tag == 5) = some (jobAt .replay).spec
      ∧ Ready (jobState .fill []) ∧ (∀ j ∈ (jobState .fill []).comp.jobs, j.tag ≠ 5)
      ∧ (jobState .fill []).comp.started = some (jobAt .fill) ∧ (jobAt .fill).running = true
      ∧ ({ jobAt .fill with running := false } : Job).running = false
      ∧ (∀ j, (jobState .fill []).comp.started = some j → j.spec.tag ≠ 6) :=
  ⟨by unfold Ready LinkOpen; decide +kernel, by decide +kernel, by unfold Ready LinkOpen; decide +kernel, by decide +kernel,
    rfl, rfl, rfl, by intro j h; cases h; decide⟩

theorem locate_ready : Ready locateState := by unfold Ready LinkOpen; decide +kernel

theorem witness_FrameReleaseFreesSlot :
    Ready locateState ∧ 3 < locateState.comp.frames.length ∧ (frameAt locateState.comp 3).state = .live
      ∧ (frameAt locateState.comp 3).gen = 9 ∧ (frameAt locateState.comp 7).state = .free ∧ (8 : Nat) ≤ 8
      ∧ (frameAt (jobState .fill []).comp 0).state = .opened :=
  ⟨locate_ready, by decide +kernel⟩

theorem witness_FrameInfoAndLocateReport :
    Ready locateState ∧ (frameAt locateState.comp 3).state = .live ∧ (frameAt locateState.comp 3).gen = 9
      ∧ (frameAt locateState.comp 3).lines = [] ++ setExample.record :: []
      ∧ 200 + setExample.record.top ≤ 231 ∧ 231 < 200 + setExample.record.top + setExample.record.height
      ∧ (layLine locateState liveFrame setExample.record).length = 17 :=
  ⟨locate_ready, by decide +kernel⟩

/-- A part whose slot 0 is LIVE with a pending range and a waiting retint job. -/
def waitingState : State :=
  { active with
    comp :=
      { active.comp with
        frames := active.comp.frames.set 0 { openedFrame [jobLine0.record] with state := .live, snapshot := none, retint := some (0, 0) }
        retints := [⟨0, 1, none⟩] } }

/-- A part with a pending commit and a work-dirty tile. -/
def committing : State :=
  withTile 69 { TileRec.fresh with workDirty := true }
    { active with comp := { active.comp with commit := .pending ⟨.text, .normal, ⟨0, 9, 0, 6⟩⟩ } }

/-- A part whose eight slots are LIVE over one rectangle, slot 3 first in the live order. -/
def fullFrames : State :=
  { active with
    comp :=
      { active.comp with
        frames := List.replicate 8 { openedFrame [jobLine0.record] with state := .live, snapshot := none }
        liveOrder := [3, 0, 1, 2, 4, 5, 6, 7] } }

theorem witness_GrantFollowsPrecedence :
    standby.settings.power ≠ .active ∧ (jobState .fill []).comp.path ≠ .free
      ∧ waitingState.settings.power = .active ∧ waitingState.comp.path = .free
      ∧ waitingState.comp.retints = [] ++ ⟨0, 1, none⟩ :: [] ∧ (frameAt waitingState.comp 0).retint = some (0, 0)
      ∧ (∀ e ∈ committing.comp.retints, e.run ≠ none) ∧ committing.comp.commit = .pending ⟨.text, .normal, ⟨0, 9, 0, 6⟩⟩
      ∧ committing.sched.tiles[69]? = some { TileRec.fresh with workDirty := true }
      ∧ inTileRect ⟨0, 9, 0, 6⟩ (69 % tileCols committing) (69 / tileCols committing) = true
      ∧ (∀ t ∈ active.sched.tiles, t.workDirty = false)
      ∧ (∀ e ∈ active.comp.retints, e.run ≠ none) ∧ active.comp.started = none ∧ active.comp.frames.length = 8
      ∧ (∃ i, i < 8 ∧ (frameAt active.comp i).state = .free)
      ∧ fullFrames.comp.liveOrder = 3 :: [0, 1, 2, 4, 5, 6, 7] ∧ fullFrames.comp.frames.length = 8
      ∧ (∀ i, i < 8 → (frameAt fullFrames.comp i).state ≠ .free)
      ∧ rectsMeet (areaOf (panelRect fullFrames) ⟨64, 128, 32, 40⟩ 0 0) (areaOf (panelRect fullFrames) ⟨64, 64, 32, 40⟩ 0 0)
        = false
      ∧ rectsMeet (areaOf (panelRect fullFrames) ⟨64, 100, 32, 40⟩ 0 0) (areaOf (panelRect fullFrames) ⟨64, 64, 32, 40⟩ 0 0)
        = true := by decide +kernel

theorem witness_StackIsReplayed :
    (jobState .replay []).comp.started = some (jobAt .replay) ∧ (jobAt .replay).running = true
      ∧ (jobState .replay []).comp.frames[0]? = some (openedFrame [])
      ∧ normalise [RunRecord.word [65, 66] false []] ⟨0, 0⟩ = ⟨0, 0⟩
      ∧ normalise [RunRecord.word [65, 66] false []] ⟨1, 0⟩ = ⟨1, 0⟩ ∧ (openedFrame []).lines = []
      ∧ (runStyles (jobState .replay []).styles [] 0 (jobAt .replay).stack).2 = none
      ∧ (∀ e ∈ (jobState .replay []).comp.retints, e.run ≠ none) ∧ (∃ e ∈ waitingState.comp.retints, e.run = none)
      ∧ (jobAt .replay).abortAsked = false ∧ ({ jobAt .replay with abortAsked := true } : Job).abortAsked = true
      ∧ (runStyles standby.styles [.stylePop] 0 { (jobAt .replay).stack with mode := .strict }).2
        = some (.styleUnderflow, ⟨0, 0⟩)
      ∧ (jobAt .replay).stack.flow = [] ++ [Style.default] ∧ standby.styles[31]? = some Style.default
      ∧ Ready standby :=
  ⟨rfl, rfl, rfl, by decide +kernel, by decide +kernel, rfl, by decide +kernel, by decide +kernel,
    ⟨_, List.mem_singleton.mpr rfl, rfl⟩, rfl, rfl, by decide +kernel, rfl, by decide +kernel, standby_ready⟩

theorem witness_PaperFillCoversArea :
    (jobState .fill []).comp.started = some (jobAt .fill) ∧ PlaneWf (jobState .fill []).planes.w
      ∧ areaOf (panelRect (jobState .fill [])) ⟨64, 64, 32, 40⟩ 0 0 = ⟨64, 64, 32, 40⟩
      ∧ panelWidth (jobState .fill []) ≤ 4096 := by decide +kernel

/-- The job over a frame too low for a line, with a line recorded. -/
def lowState : State :=
  { jobState .lines [jobLine0.record] with
    comp :=
      { (jobState .lines [jobLine0.record]).comp with
        started := some { jobAt .lines with nextTop := 32 } } }

theorem witness_LineSetFitsOrStops :
    40 < (jobLine lowState { jobAt .lines with nextTop := 32 }).record.top
          + (jobLine lowState { jobAt .lines with nextTop := 32 }).record.height
      ∧ (frameAt lowState.comp 0).lines ≠ []
      ∧ (jobState .lines []).comp.frames[0]? = some (frameAt (jobState .lines []).comp 0)
      ∧ jobLine0.record.top + jobLine0.record.height ≤ 40
      ∧ lineFailure (jobEnv (jobState .lines []) (jobAt .lines)) ⟨0, 0⟩ jobLine0.record.stop (jobAt .lines).stack = none
      ∧ jobLine0.entries ≠ [] := by decide +kernel

theorem witness_JustifiedLineFillsColumn :
    (∀ g ∈ [Gap.mk ⟨1, 0⟩ 64 48 112, Gap.mk ⟨3, 0⟩ 64 48 112], g.natural ≤ g.max ∧ g.min ≤ g.natural) ∧ 2146 + 128 ≤ 2400
      ∧ 2400 < 2440 ∧ ([Gap.mk ⟨1, 0⟩ 80 80 80, Gap.mk ⟨3, 0⟩ 108 48 108].map (·.natural)).sum ≤ 2440 := by decide +kernel

theorem witness_SpanDrawnThenBoundary :
    (jobState (.drawing jobLine0 0) []).comp.started = some (jobAt (.drawing jobLine0 0))
      ∧ 1 ≤ (jobAt (.drawing jobLine0 0)).spanLength ∧ 0 * (jobAt (.drawing jobLine0 0)).spanLength < jobLine0.entries.length
      ∧ jobLine0.entries.length ≤ (0 + 1) * (jobAt (.drawing jobLine0 0)).spanLength
      ∧ (0 + 1) * 1 < jobLine0.entries.length
      ∧ ({ jobAt (.drawing jobLine0 0) with abortAsked := true } : Job).abortAsked = true
      ∧ (jobState (.drawing jobLine0 0) []).comp.frames[0]? = some (openedFrame []) := by
  decide +kernel

theorem witness_GlyphIsDrawnInsideClip :
    PlaneWf active.planes.w ∧ (panelRect active).x + (panelRect active).w ≤ 4096
      ∧ (DrawEntry.mk (some ⟨144, 1, 10, 3, 2, [0, 15, 0, 8, 15, 8]⟩) 637 0 3 2 0).glyph
        = some ⟨144, 1, 10, 3, 2, [0, 15, 0, 8, 15, 8]⟩ := by decide +kernel

theorem witness_OverlayThenClose :
    (jobState (.overlay 0) [jobLine0.record]).comp.started = some (jobAt (.overlay 0))
      ∧ (jobState (.overlay 0) [jobLine0.record]).comp.frames[0]? = some (openedFrame [jobLine0.record])
      ∧ (openedFrame [jobLine0.record]).lines[0]? = some jobLine0.record
      ∧ (openedFrame [jobLine0.record]).snapshot = some []
      ∧ (∀ e ∈ (jobState (.overlay 0) [jobLine0.record]).comp.retints, e.run ≠ none)
      ∧ 0 + 1 = (openedFrame [jobLine0.record]).lines.length
      ∧ 0 + 1 < (openedFrame [jobLine0.record, jobLine0.record]).lines.length := by decide +kernel

/-- The run of `retintState1`. -/
def run1 : RetintRun :=
  ⟨0, 0, 0, .paper, 16, 15, 0, 0, false, { openedFrame [jobLine0.record] with state := .live, snapshot := none }⟩

theorem witness_RetintRedrawsLine :
    retintState1.comp.path = .retintJob ∧ retintState1.comp.retints = [] ++ ⟨0, 1, some run1⟩ :: []
      ∧ run1.frame.lines[run1.current]? = some jobLine0.record ∧ run1.hi ≤ run1.current
      ∧ ({ run1 with hi := 1 } : RetintRun).current < ({ run1 with hi := 1 } : RetintRun).hi
      ∧ retintState1.comp.started = none ∧ run1.stage = .paper ∧ 1 ≤ run1.spanLength
      ∧ retintEntries run1 jobLine0.record retintState1 ≠ [] ∧ PlaneWf retintState1.planes.w ∧ panelWidth retintState1 ≤ 4096
      ∧ ({ run1 with stage := .glyphs jobLine0.entries 0 } : RetintRun).stage = .glyphs jobLine0.entries 0
      ∧ 0 * run1.spanLength < jobLine0.entries.length := by decide +kernel

theorem witness_DrawingTouchesOnlyW :
    exec .pagePaperFill (jobState .fill []) = .next (after .pagePaperFill (jobState .fill []))
      ∧ PlaneWf retintState2.planes.w ∧ retintState2.settings.power = .active ∧ (idle retintState2).settings.power = .active
      ∧ (∀ e ∈ retintState2.comp.retints, ∀ r, e.run = some r → r.stage ≠ .paper) ∧ step retintState2 = .next (idle retintState2)
      ∧ pixelAt (idle retintState2).planes.w 64 64 < pixelAt retintState2.planes.w 64 64 :=
  ⟨rfl, by decide +kernel, rfl, by decide +kernel,
    (by intro e h r hr; rw [List.mem_singleton.mp h] at hr; cases hr; intro h; cases h), rfl, by decide +kernel⟩

theorem witness_NoteRequestsChangeTable :
    Ready standby
      ∧ fields1 = ⟨some 7, some 0, some ⟨0, 0⟩, some ⟨1, 0⟩, some (.fill 4), none, none, none, none, none⟩
      ∧ posLt note1.start note1.stop = true ∧ (∀ m ∈ standby.notes, m.id ≠ 7) ∧ standby.notes.length < 128
      ∧ 128 ≤ (List.replicate 128 { note1 with id := 9 }).length
      ∧ [note1] = [] ++ note1 :: [] :=
  ⟨standby_ready, by decide +kernel⟩

theorem witness_NoteReachesFrame :
    retintState1.comp.frames[0]? = some run1.frame ∧ run1.frame.state = .live ∧ run1.frame.flow = 0
      ∧ reachedLines run1.frame none (some (⟨0, 1⟩, ⟨1, 0⟩)) = [0]
      ∧ (∀ e ∈ waitingState.comp.retints, e.slot = 0 → e.gen = 1 → e.run = none)
      ∧ reachedLines (openedFrame [jobLine0.record]) none (some (⟨0, 1⟩, ⟨1, 0⟩)) ≠ []
      ∧ (openedFrame [jobLine0.record]).state = .opened ∧ (openedFrame [jobLine0.record]).snapshot ≠ none
      ∧ reachedLines run1.frame none (some (⟨1, 0⟩, ⟨2, 0⟩)) = []
      ∧ ⟨0, run1.frame.gen, some run1⟩ ∈ retintState1.comp.retints
      ∧ (∀ e ∈ retintState1.comp.retints, e.slot = 0 → e.gen = 1 → e.run = none ∨ e.run = some run1)
      ∧ leftToJob run1 0 = true ∧ leftToJob run1 1 = false ∧ leftToJob run2 0 = false := by decide +kernel

theorem witness_NoteListPages :
    Ready standby ∧ (([{ note1 with id := 9 }, note1] : List Note).map (·.id)).Nodup := ⟨standby_ready, by decide +kernel⟩

theorem witness_CommitAndRefreshAccepted :
    ReadyActive active ∧ Ready standby ∧ (0 ≤ 9 ∧ 9 < panelWidth active / 64 ∧ 6 < panelHeight active / 64)
      ∧ panelWidth active / 64 ≤ 10 ∧ active.comp.commit = .empty ∧ committing.comp.commit ≠ .empty
      ∧ (∀ t ∈ active.sched.tiles, t.targetNewer = false)
      ∧ boundTiles 10 [12] = some ⟨2, 2, 1, 1⟩ ∧ (2 : Nat) < 3 ∧ (1 : Nat) < 2 :=
  ⟨active_ready, standby_ready, by decide +kernel⟩

theorem witness_UpdateIsQueued :
    twoUpdates.queue = [⟨60, ⟨0, 3, 0, 3⟩, .text, .normal, .commit, 1⟩] ++ ⟨61, ⟨10, 12, 0, 2⟩, .swift, .prompt, .commit, 1⟩ :: []
      ∧ tilesAdjoin ⟨10, 12, 0, 2⟩ ⟨6, 9, 0, 0⟩ = true ∧ tilesOverlap ⟨10, 12, 0, 2⟩ ⟨4, 5, 0, 1⟩ = false
      ∧ tilesAdjoin ⟨10, 12, 0, 2⟩ ⟨13, 13, 3, 3⟩ = false ∧ twoUpdates.queue.length < 24
      ∧ List.replicate 24 (UpdateRec.mk 1 ⟨0, 0, 0, 0⟩ .text .normal .commit 1)
        = List.replicate 23 ⟨1, ⟨0, 0, 0, 0⟩, .text, .normal, .commit, 1⟩ ++ [⟨1, ⟨0, 0, 0, 0⟩, .text, .normal, .commit, 1⟩] := by
  decide +kernel

theorem witness_QueueInfoReports : Ready busyState := by unfold Ready LinkOpen; decide +kernel

theorem witness_LatchActsOnTile :
    (latching { TileRec.fresh with workDirty := true }).comp.commit = .latching ⟨.swift, .prompt, ⟨0, 9, 0, 6⟩⟩ 0 [] 0
      ∧ (latching { TileRec.fresh with workDirty := true }).sched.tiles[12]? = some { TileRec.fresh with workDirty := true }
      ∧ inTileRect ⟨0, 9, 0, 6⟩ (12 % tileCols (latching TileRec.fresh)) (12 / tileCols (latching TileRec.fresh)) = true
      ∧ (∀ k, k < 12 → (active.sched.tiles.getD k TileRec.fresh).workDirty = false) := by decide +kernel

theorem witness_BoundariesAndFrames :
    State.reset.settings.power = .starting ∧ active.settings.power ≠ .starting
      ∧ (drivingState { drive with framesLeft := 6, framesDue := 1 } TileRec.fresh).lanes.lanes[2]?
        = some (.driving { drive with framesLeft := 6, framesDue := 1 })
      ∧ (drivingState drive TileRec.fresh).lanes.lanes[2]? = some (.driving drive) ∧ drive.framesLeft = 0 := by
  decide +kernel

/-- The scan with lane 7 the only one FREE. -/
def oneLane : State :=
  { scanState with
    lanes := { scanState.lanes with lanes := List.replicate 7 (.driving { drive with rect := ⟨9, 9, 6, 6⟩ }) ++ [.free] } }

theorem witness_ScanLoadsFreeLane :
    standby.settings.power ≠ .active ∧ oneLane.settings.power = .active ∧ oneLane.lanes.scanDue = true
      ∧ oneLane.lanes.lanes.length = 8 ∧ oneLane.lanes.lanes[7]? = some .free
      ∧ (∀ m, m < 7 → oneLane.lanes.lanes[m]? ≠ some .free)
      ∧ oneLane.sched.queue[0]? = some ⟨71, ⟨0, 1, 0, 0⟩, .text, .normal, .commit, 1⟩ ∧ eligible oneLane 0 = true
      ∧ oneLane.sched.queue.length = 1
      ∧ scanState.lanes.scanDue = true ∧ (∀ m, m < 8 → scanState.lanes.lanes[m]? = some .free) := by decide +kernel

theorem witness_ModeIsSettledWithItsFrames :
    scanState.sched.tiles[1]? = some { TileRec.fresh with inkAge := 12, glassKnown := true }
      ∧ applied scanState 6 ≤ 12 ∧ inTileRect ⟨0, 1, 0, 0⟩ (1 % tileCols scanState) (1 / tileCols scanState) = true
      ∧ (settleRecord scanState ⟨70, ⟨0, 1, 0, 0⟩, .swift, .prompt, .commit, 1⟩).mode = .text
      ∧ (settleRecord scanState ⟨72, ⟨2, 2, 0, 0⟩, .swift, .normal, .commit, 1⟩).mode = .clean := by decide +kernel

/-- A tile that a commit deferred under lane 2. -/
def deferredTile : TileRec := { TileRec.fresh with state := .flightStale, lane := some 2, deferredMode := some .text }

theorem witness_CompletionLandsLane :
    active.lanes.lanes[0]? = some .free ∧ active.lanes.lanes[8]? = none
      ∧ (drivingState drive TileRec.fresh).lanes.lanes[2]? = some (.driving drive) ∧ drive.framesLeft = 0
      ∧ (drivingState { drive with framesLeft := 1 } TileRec.fresh).lanes.lanes[2]? = some (.driving { drive with framesLeft := 1 })
      ∧ PlaneWf (drivingState drive TileRec.fresh).planes.g ∧ PlaneWf (drivingState drive TileRec.fresh).planes.t
      ∧ drive.rect.col1 < 64 ∧ drive.rect.col0 ≤ drive.rect.col1
      ∧ drive.rect.row0 ≤ drive.rect.row1 ∧ 0 < tileCols active ∧ tileCols active ≤ 64
      ∧ (drivingState drive deferredTile).sched.tiles[0]? = some deferredTile ∧ deferredTile.lane = some 2
      ∧ deferredTile.state = .flightStale ∧ deferredTile.deferredMode = some .text ∧ drive.driven = .swift
      ∧ boundTiles (tileCols active) [0] = some ⟨0, 0, 0, 0⟩ ∧ applied active 7 = 0 ∧ applied active 8 = 1 := by
  decide +kernel

theorem witness_TimersExpire :
    standby.settings.power ≠ .active ∧ (wornState 1800000).settings.power = .active
      ∧ applied (wornState 1800000) 9 ≠ 0 ∧ applied (wornState 1800000) 7 = 0
      ∧ applied (wornState 1800000) 9 * 60000 ≤ (wornState 1800000).sched.deghostMs
      ∧ (wornState 1799999).sched.deghostMs < applied (wornState 1799999) 9 * 60000
      ∧ (∀ t ∈ active.sched.tiles, t.inkAge = 0) ∧ boundTiles 10 [3] = some ⟨3, 3, 0, 0⟩
      ∧ standby.lanes.stale = true ∧ (warmState 600000).lanes.stale = false ∧ 600000 ≤ (warmState 600000).lanes.staleMs
      ∧ (warmState 599999).lanes.staleMs < 600000 := by decide +kernel

theorem witness_ScanEndsInStandby :
    active.settings.power ≠ .starting ∧ State.reset.settings.power = .starting ∧ State.reset.pins.resetHeld = false
      ∧ State.reset.store.nv.wipeMark = false
      ∧ (withFont .ready 1 [] State.reset).store.nv.fonts[5]? = some (some ⟨serif, [], true, false, 1, false⟩)
      ∧ (withFont .loading 0 [] State.reset).store.nv.fonts[5]? = some (some ⟨serif, [], false, false, 0, false⟩)
      ∧ State.reset.store.nv.fonts[0]? = some none := by decide +kernel

/-! The invariants hold of parts at work, and a step leads on from them. -/

theorem retint_path : PathDiscipline retintState1 := by
  refine ⟨⟨fun h => ?_, fun h => ?_⟩, by decide +kernel, by decide +kernel, by decide +kernel⟩
  · exact absurd h (by decide +kernel)
  · obtain ⟨j, h, _⟩ := h
    cases h

theorem active_settings : SettingsInRange active := by
  refine ⟨by decide +kernel, fun id h => ?_⟩
  have : ∀ id ≤ 12, clampSetting id (setting active.settings id).applied = (setting active.settings id).applied
      ∧ (setting active.settings id).pending = none := by decide +kernel
  refine ⟨(this id h).1, fun v hv => ?_, fun _ => (this id h).2⟩
  rw [(this id h).2] at hv
  cases hv

theorem active_tiles : TilesWf active := by
  refine ⟨fun h => (by cases h), fun w h hw => ?_, fun _ => by decide +kernel, by decide +kernel⟩
  cases hw
  decide +kernel

/-- The part with a retint job at work, its record in the live order. -/
def recordsState : State := { retintState1 with comp := { retintState1.comp with liveOrder := [0] } }

theorem records_frames (i : Nat) :
    frameAt recordsState.comp i
      = if i = 0 then { openedFrame [jobLine0.record] with state := .live, snapshot := none } else FrameRec.vacant 0 := by
  by_cases hi : i < 8
  · have : ∀ i, i < 8 →
        frameAt recordsState.comp i
          = if i = 0 then { openedFrame [jobLine0.record] with state := .live, snapshot := none } else FrameRec.vacant 0 := by
      decide +kernel
    exact this i hi
  · have hl : recordsState.comp.frames.length = 8 := rfl
    unfold frameAt
    rw [List.getD_eq_getElem?_getD, List.getElem?_eq_none (by omega), if_neg (by omega)]
    rfl

theorem records_wf : RecordsWf recordsState := by
  refine ⟨rfl, fun i => ?_, by decide, by decide, fun i => ?_, by decide, by decide, fun e h => ?_, fun j h => ?_, fun i h => ?_,
    fun h => absurd rfl h⟩
  · rw [records_frames]
    split
    · exact (by decide : (1 : Nat) ≤ 256)
    · exact Nat.zero_le _
  · rw [records_frames]
    by_cases h0 : i = 0
    · subst h0
      exact ⟨fun _ => ⟨by decide, rfl⟩, fun _ => List.mem_singleton.mpr rfl⟩
    · rw [if_neg h0]
      exact ⟨fun h => absurd (List.mem_singleton.mp h) h0, fun h => (by cases h.2)⟩
  · rw [List.mem_singleton.mp h]
    exact ⟨by decide, .inl ⟨rfl, rfl, fun r hr => (by cases hr; rfl)⟩⟩
  · cases h
  · rw [records_frames] at h
    split at h <;> cases h

theorem witness_BoundedKept :
    Bounded busyState ∧ step { busyState with pending := [.lineSet] } = .next (after .lineSet busyState)
      ∧ PathDiscipline retintState1 ∧ RecordsWf recordsState ∧ SettingsInRange active ∧ TilesWf active
      ∧ NotesWf { standby with notes := [note1] } ∧ PortWf answered :=
  ⟨by unfold Bounded; decide +kernel, rfl, retint_path, records_wf, active_settings, active_tiles,
    by unfold NotesWf; decide +kernel, answered_port⟩

/-- The part with its job's line drawn. -/
def drawn : State := after .glyphSpanDrawn (jobState (.drawing jobLine0 0) [])

theorem witness_PlanesWfKept : PlanesWf (after .glyphSpanDrawn (jobState (.drawing jobLine0 0) [])) ∧ LevelsWf drawn := by
  refine ⟨by unfold PlanesWf; decide +kernel, by decide +kernel, fun j h => ?_, fun e h => ?_⟩
  · cases h
    decide
  · cases h

theorem witness_PathDisciplineKept : PathDiscipline retintState1 := retint_path

theorem witness_SettingsInRangeKept : SettingsInRange active := active_settings

/-- A part with tile (0, 0) in flight under lane 2. -/
def flying : State :=
  drivingState { drive with framesLeft := 1, framesDue := 1 } { TileRec.fresh with state := .flight, lane := some 2 }

theorem flying_lanes (l : Nat) (d : Drive) :
    flying.lanes.lanes[l]? = some (.driving d) ↔ l = 2 ∧ d = { drive with framesLeft := 1, framesDue := 1 } := by
  match l with
  | 0 | 1 | 3 | 4 | 5 | 6 | 7 => exact ⟨fun h => (by cases h), fun h => (by cases h.1)⟩
  | 2 => exact ⟨fun h => (by cases h; exact ⟨rfl, rfl⟩), fun h => (by rw [h.2]; rfl)⟩
  | n + 8 => exact ⟨fun h => (by cases h), fun h => absurd h.1 (by omega)⟩

theorem flying_tiles :
    ∀ i, i < 70 →
      flying.sched.tiles[i]? = some (if i = 0 then { TileRec.fresh with state := .flight, lane := some 2 } else TileRec.fresh)
        ∧ inTileRect drive.rect (i % tileCols flying) (i / tileCols flying) = decide (i = 0) := by decide +kernel

theorem witness_FlightDisciplineKept : FlightDiscipline flying := by
  refine ⟨by decide +kernel, fun h => absurd rfl h, fun i t ht => ?_⟩
  have hi : i < 70 := by
    have hl : flying.sched.tiles.length = 70 := by decide +kernel
    by_cases h : i < 70
    · exact h
    · rw [List.getElem?_eq_none (by omega)] at ht
      cases ht
  have key := flying_tiles i hi
  rw [ht] at key
  injection key.1 with htt
  by_cases h0 : i = 0
  · subst h0
    rw [htt]
    refine ⟨by decide, fun l => ⟨fun h => ?_, fun ⟨d, h, _⟩ => ?_⟩⟩
    · cases h
      exact ⟨_, (flying_lanes 2 _).mpr ⟨rfl, rfl⟩, by decide +kernel⟩
    · rw [((flying_lanes l d).mp h).1]
      rfl
  · rw [if_neg h0] at htt
    rw [htt]
    refine ⟨by decide, fun l => ⟨fun h => ?_, fun ⟨d, h, hr⟩ => ?_⟩⟩
    · cases h
    · rw [((flying_lanes l d).mp h).2] at hr
      have := key.2
      simp [h0] at this
      exact absurd hr (by rw [show ({ drive with framesLeft := 1, framesDue := 1 } : Drive).rect = drive.rect from rfl, this]; decide)

theorem witness_TargetStandsStillInFlight :
    PlanesWf flying ∧ step { flying with pending := [.laneFrame 2] } = .next (after (.laneFrame 2) flying)
      ∧ flying.sched.tiles[0]? = some { TileRec.fresh with state := .flight, lane := some 2 }
      ∧ (after (.laneFrame 2) flying).sched.tiles[0]? = some { TileRec.fresh with state := .flight, lane := some 2 }
      ∧ pixelInTile flying 0 63 63 :=
  ⟨by unfold PlanesWf; decide +kernel, rfl, by decide +kernel, by decide +kernel, by unfold pixelInTile; decide +kernel⟩

end Sys2Proof.Tests
end

section
/-! SUPPORT. What the Flow Memory's and the Style Unit's requests answer (spec/01). -/

namespace Sys2Proof.Machine

/-! ### Requests of a ready part -/

/-- The free places are what the four slots leave of the Flow Memory (R1). -/
theorem freeRunPlaces_eq (s : State) : freeRunPlaces s = 16384 - (s.flows.map List.length).sum := rfl

theorem exec_flowAppend {s : State} (h : Ready s) (tag : Byte) (slot : Nat) (records : List RunRecord) :
    exec (.flowAppend tag slot records) s = .next (decided tag 0x10#8 (takeFlowAppend slot records s)) :=
  congrArg Host.Outcome.next (present_ready h tag (.flowAppend slot records))

theorem exec_flowClear {s : State} (h : Ready s) (tag : Byte) (slot : Nat) :
    exec (.flowClear tag slot) s = .next (decided tag 0x11#8 (takeFlowClear slot s)) :=
  congrArg Host.Outcome.next (present_ready h tag (.flowClear slot))

theorem exec_flowInfo {s : State} (h : Ready s) (tag : Byte) (slot : Nat) :
    exec (.flowInfo tag slot) s = .next (decided tag 0x12#8 (takeFlowInfo slot s)) :=
  congrArg Host.Outcome.next (present_ready h tag (.flowInfo slot))

theorem exec_styleDefine {s : State} (h : Ready s) (tag : Byte) (id : Nat) (f : StyleFields) :
    exec (.styleDefine tag id f) s = .next (decided tag 0x13#8 (takeStyleDefine id f s)) :=
  congrArg Host.Outcome.next (present_ready h tag (.styleDefine id f))

theorem exec_styleRead {s : State} (h : Ready s) (tag : Byte) (id : Nat) :
    exec (.styleRead tag id) s = .next (decided tag 0x14#8 (takeStyleRead id s)) :=
  congrArg Host.Outcome.next (present_ready h tag (.styleRead id))

/-! ### FLOW_APPEND, FLOW_INFO (R7, R8, R11) -/

theorem takeFlowAppend_badSlot {slot : Nat} (h : 3 < slot) (records : List RunRecord) (s : State) :
    takeFlowAppend slot records s = (s, .badArgument, .none) := by
  simp [takeFlowAppend, h]

/-- One malformed record refuses the whole request (R8). -/
theorem takeFlowAppend_malformed {slot : Nat} (h : slot ≤ 3) {records : List RunRecord}
    (hr : ∃ r ∈ records, recordMalformed r = true) (s : State) :
    takeFlowAppend slot records s = (s, .malformed, .none) := by
  have hm : records.any recordMalformed = true := List.any_eq_true.mpr hr
  simp [takeFlowAppend, Nat.not_lt.mpr h, hm]

/-- Well-formed records are refused only for want of room (R7, R8). -/
theorem takeFlowAppend_wellFormed {slot : Nat} (h : slot ≤ 3) {records : List RunRecord}
    (hr : ∀ r ∈ records, recordMalformed r = false) (s : State) :
    takeFlowAppend slot records s
      = if freeRunPlaces s < records.length then (s, .full, .freePlaces (freeRunPlaces s))
        else
          ({ s with flows := s.flows.set slot (flowOf s slot ++ records) },
            .ok, .flowLength ((flowOf s slot).length + records.length)) := by
  have hm : records.any recordMalformed = false := by simpa using hr
  simp [takeFlowAppend, Nat.not_lt.mpr h, hm]

/-- Settles O17: the four answers of FLOW_APPEND in the order of its checks, and the two of FLOW_INFO. -/
theorem flowAppendAndInfo : Obligations.FlowAppendAndInfo := by
  refine ⟨fun s tag slot records hs => ?_, fun s tag slot hs => ?_⟩
  · rw [exec_flowAppend hs]
    refine ⟨fun h => ?_, fun h hr => ?_, fun h hr => ⟨fun room => ?_, fun noRoom within => ?_⟩⟩
    · rw [takeFlowAppend_badSlot h, decided_eq]
    · rw [takeFlowAppend_malformed h hr, decided_eq]
    · rw [takeFlowAppend_wellFormed h hr, if_neg (by rw [freeRunPlaces_eq]; omega)]
      rfl
    · rw [takeFlowAppend_wellFormed h hr, if_pos (by rw [freeRunPlaces_eq]; omega)]
      rfl
  · rw [exec_flowInfo hs]
    refine ⟨fun h => ?_, fun h => ?_⟩
    · rw [takeFlowInfo, if_neg (Nat.not_lt.mpr h)]
      rfl
    · rw [takeFlowInfo, if_pos h, decided_eq]

/-! ### FLOW_CLEAR (R10) -/

/-- A slot is in use by a queued or started job, or by a retint job at work on a record of its flow (R10). -/
theorem flowBusy_iff (c : Composition) (slot : Nat) :
    flowBusy c slot = true ↔
      (∃ j ∈ c.jobs, j.flow = slot) ∨ (∃ j, c.started = some j ∧ j.spec.flow = slot)
        ∨ ∃ e ∈ c.retints, ∃ r, e.run = some r ∧ r.frame.flow = slot := by
  simp [flowBusy, Option.any_eq_true, or_assoc]

/-- The slots whose record belongs to a flow. -/
def flowSlots (c : Composition) (flow : Nat) : List Nat := framesWhere (fun f => f.state != .free && f.flow == flow) c

theorem mem_flowSlots {c : Composition} {flow i : Nat} :
    i ∈ flowSlots c flow ↔ i < 8 ∧ (frameAt c i).state ≠ .free ∧ (frameAt c i).flow = flow := by
  simp [flowSlots, mem_framesWhere]

theorem framesWhere_nodup (p : FrameRec → Bool) (c : Composition) : (framesWhere p c).Nodup :=
  List.nodup_range.filter _

/-- FLOW_CLEAR of a slot that no job uses (R10). -/
theorem takeFlowClear_unused {slot : Nat} (h : slot ≤ 3) {s : State} (hb : flowBusy s.comp slot = false) :
    takeFlowClear slot s
      = ({ s with flows := s.flows.set slot [], comp := releaseAll (flowSlots s.comp slot) s.comp },
          .ok, .flowCleared (flowSlots s.comp slot).length (16384 - ((s.flows.set slot []).map List.length).sum)) := by
  rw [takeFlowClear, if_neg (Nat.not_lt.mpr h), hb]
  rfl

/-- Settles O18: the records released are those of `flowSlots`, each of them held. -/
theorem flowClearReleasesFrames : Obligations.FlowClearReleasesFrames := by
  intro s tag slot hs
  rw [exec_flowClear hs]
  refine ⟨fun h => ?_, fun h used => ?_, fun h noQueued noStarted noRetint => ?_⟩
  · rw [takeFlowClear, if_pos h, decided_eq]
  · rw [takeFlowClear, if_neg (Nat.not_lt.mpr h), if_pos ((flowBusy_iff s.comp slot).mpr used), decided_eq]
  · have unused : flowBusy s.comp slot = false := by
      rw [← Bool.not_eq_true, flowBusy_iff]
      rintro (⟨j, hj, hf⟩ | ⟨j, hj, hf⟩ | ⟨e, he, r, hr, hf⟩)
      · exact noQueued j hj hf
      · exact noStarted j hj hf
      · exact noRetint e he r hr hf
    obtain ⟨released, hjobs, hstarted, hpath, hcommit, -⟩ :=
      releaseAll_spec (flowSlots s.comp slot) (framesWhere_nodup _ _) s.comp (fun i hi => (mem_flowSlots.mp hi).2.1)
    rw [takeFlowClear_unused h unused, decided_eq]
    refine ⟨_, _, rfl, rfl, hjobs, hstarted, hpath, hcommit, fun i hi => ?_⟩
    rw [released i]
    simp only [mem_flowSlots, hi, true_and]

/-! ### STYLE_DEFINE, STYLE_READ (R13, R14, R15) -/

theorem alignOfCode_known {c : Nat} (h : c ≤ 3) : ∃ a, alignOfCode c = some a ∧ alignCode a = c := by
  match c, h with
  | 0, _ => exact ⟨_, rfl, rfl⟩
  | 1, _ => exact ⟨_, rfl, rfl⟩
  | 2, _ => exact ⟨_, rfl, rfl⟩
  | 3, _ => exact ⟨_, rfl, rfl⟩

theorem alignOfCode_unknown {c : Nat} (h : 3 < c) : alignOfCode c = none := by
  match c, h with
  | n + 4, _ => rfl

theorem alignmentKnown_iff (f : StyleFields) : alignmentKnown f = true ↔ ∀ c, f.alignment = some c → c ≤ 3 := by
  unfold alignmentKnown
  cases f.alignment with
  | none => simp
  | some c =>
    simp only [Option.some.injEq, forall_eq']
    by_cases h : c ≤ 3
    · obtain ⟨a, ha, -⟩ := alignOfCode_known h
      simp [ha, h]
    · simp [alignOfCode_unknown (Nat.lt_of_not_le h), h]

theorem tableStyle_of_some {table : List Style} {id : Nat} {v : Style} (h : table[id]? = some v) :
    tableStyle table id = v := by
  simp [tableStyle, List.getD_eq_getElem?_getD, h]

/-- A STYLE_DEFINE that passes its checks stores the changed record and returns it (R14). -/
theorem exec_styleDefine_stores {s : State} (hs : Ready s) (tag : Byte) {id : Nat} (hid : id ≤ 31) {f : StyleFields}
    (hf : ∀ c, f.alignment = some c → c ≤ 3) {old : Style} (ho : s.styles[id]? = some old) :
    exec (.styleDefine tag id f) s
      = .next
        (replied tag 0x13#8 .ok (.style (applyFields old f)) { s with styles := s.styles.set id (applyFields old f) }) := by
  rw [exec_styleDefine hs, takeStyleDefine, if_neg (Nat.not_lt.mpr hid), (alignmentKnown_iff f).mpr hf,
    tableStyle_of_some ho]
  rfl

/-- Settles O19: the stored record is `applyFields` of the old one, whose eleven fields are read off one by one. -/
theorem styleRecordsAreSetAndRead : Obligations.StyleRecordsAreSetAndRead := by
  refine ⟨fun s tag id f old hs => ⟨fun h => ?_, fun h c hc hbad => ?_, fun h ho hf => ?_⟩,
    fun s tag id hs => ⟨fun h => ?_, fun v h hv => ?_⟩⟩
  · rw [exec_styleDefine hs, takeStyleDefine, if_pos h, decided_eq]
  · have unknown : alignmentKnown f = false := by
      rw [← Bool.not_eq_true, alignmentKnown_iff]
      exact fun known => absurd (known c hc) (Nat.not_le.mpr hbad)
    rw [exec_styleDefine hs, takeStyleDefine, if_neg (Nat.not_lt.mpr h), unknown]
    rfl
  · have aligned : ∀ n, f.alignment = some n → alignCode ((alignOfCode n).getD old.alignment) = n := by
      intro n hn
      obtain ⟨a, ha, hc⟩ := alignOfCode_known (hf n hn)
      rw [ha]
      exact hc
    refine ⟨applyFields old f, exec_styleDefine_stores hs tag h hf ho, ?_⟩
    simpa +contextual [applyFields, orderStyle, clampNat, clampInt] using aligned
  · rw [exec_styleRead hs, takeStyleRead, if_pos h, decided_eq]
  · rw [exec_styleRead hs, takeStyleRead, if_neg (Nat.not_lt.mpr h), tableStyle_of_some hv, decided_eq]

end Sys2Proof.Machine
end

section
/-! SUPPORT. The two relations that most of the part's work falls under: `WithinPlaces`, which says that tables stay within
their places and the link is untouched, and `GeometryKept`, which says that the tile table keeps its size and the part its
geometry and power state. -/

namespace Sys2Proof.Machine

/-- What an owner's work does to the bounded tables: the link and the held replies stay, every other table stays within its
places, and note ids stay distinct (R1, R29, R44, R81, R122, R157). -/
structure WithinPlaces (s t : State) : Prop where
  requests : t.link.requests = s.link.requests
  reserved : t.link.reserved = s.link.reserved
  filled : t.link.filled = s.link.filled
  port : t.link.port = s.link.port
  sent : t.link.sent = s.link.sent
  held : t.store.held.length = s.store.held.length
  writes : s.store.writeQueue.length ≤ 2 → t.store.writeQueue.length ≤ 2
  notices : s.notices.buffer.length ≤ 64 → t.notices.buffer.length ≤ 64
  nextSeq : s.notices.nextSeq < 65536 → t.notices.nextSeq < 65536
  updates : s.sched.queue.length ≤ 24 → t.sched.queue.length ≤ 24
  nextId : 1 ≤ s.sched.nextId ∧ s.sched.nextId ≤ 65535 → 1 ≤ t.sched.nextId ∧ t.sched.nextId ≤ 65535
  jobs : s.comp.jobs.length ≤ 4 → t.comp.jobs.length ≤ 4
  notes : s.notes.length ≤ 128 → t.notes.length ≤ 128
  noteIds : (s.notes.map (·.id)).Nodup → (t.notes.map (·.id)).Nodup
  flows : (s.flows.map List.length).sum ≤ 16384 → (t.flows.map List.length).sum ≤ 16384

theorem WithinPlaces.refl (s : State) : WithinPlaces s s :=
  ⟨rfl, rfl, rfl, rfl, rfl, rfl, id, id, id, id, id, id, id, id, id⟩

theorem WithinPlaces.trans {a b c : State} (h : WithinPlaces a b) (k : WithinPlaces b c) : WithinPlaces a c where
  requests := k.requests.trans h.requests
  reserved := k.reserved.trans h.reserved
  filled := k.filled.trans h.filled
  port := k.port.trans h.port
  sent := k.sent.trans h.sent
  held := k.held.trans h.held
  writes := k.writes ∘ h.writes
  notices := k.notices ∘ h.notices
  nextSeq := k.nextSeq ∘ h.nextSeq
  updates := k.updates ∘ h.updates
  nextId := k.nextId ∘ h.nextId
  jobs := k.jobs ∘ h.jobs
  notes := k.notes ∘ h.notes
  noteIds := k.noteIds ∘ h.noteIds
  flows := k.flows ∘ h.flows

theorem WithinPlaces.bounded {s t : State} (h : WithinPlaces s t) (hs : Bounded s) : Bounded t := by
  obtain ⟨b1, b2, b3, b4, b5, b6, b7, b8, b9, b10, b11⟩ := hs
  refine ⟨?_, ?_, ?_, h.notices b4, h.nextSeq b5, h.updates b6, h.nextId b7, h.jobs b8, h.writes b9, h.notes b10, h.flows b11⟩
  · rwa [h.requests]
  · rwa [h.reserved, h.held]
  · rwa [h.reserved, h.filled]

theorem WithinPlaces.portWf {s t : State} (h : WithinPlaces s t) (hs : PortWf s) : PortWf t := by
  unfold PortWf
  rw [h.port, h.filled, h.sent]
  exact hs

theorem WithinPlaces.notesWf {s t : State} (h : WithinPlaces s t) (hs : NotesWf s) : NotesWf t := h.noteIds hs

/-- The tile table keeps its size, and the part its panel, its last active geometry and its power state (R114, R169). -/
structure GeometryKept (s t : State) : Prop where
  tiles : t.sched.tiles.length = s.sched.tiles.length
  width : panelWidth t = panelWidth s
  height : panelHeight t = panelHeight s
  lastActive : t.settings.lastActive = s.settings.lastActive
  power : t.settings.power = s.settings.power

theorem GeometryKept.refl (s : State) : GeometryKept s s := ⟨rfl, rfl, rfl, rfl, rfl⟩

theorem GeometryKept.trans {a b c : State} (h : GeometryKept a b) (k : GeometryKept b c) : GeometryKept a c :=
  ⟨k.tiles.trans h.tiles, k.width.trans h.width, k.height.trans h.height, k.lastActive.trans h.lastActive,
    k.power.trans h.power⟩

/-- The tile table alone changes, and not in size. -/
theorem GeometryKept.of_settings {s t : State} (h : t.sched.tiles.length = s.sched.tiles.length)
    (hs : t.settings = s.settings) : GeometryKept s t := by
  refine ⟨h, ?_, ?_, congrArg Settings.lastActive hs, congrArg Settings.power hs⟩ <;>
    simp only [panelWidth, panelHeight, applied, hs]

theorem GeometryKept.tilesWf {s t : State} (h : GeometryKept s t) (hs : TilesWf s) : TilesWf t := by
  obtain ⟨h1, h2, h3, h4⟩ := hs
  refine ⟨fun hn => ?_, fun w v hw => ?_, fun ha => ?_, ?_⟩
  · rw [← List.length_eq_zero_iff, h.tiles, List.length_eq_zero_iff]
    exact h1 (h.lastActive ▸ hn)
  · rw [h.tiles]
    exact h2 w v (h.lastActive ▸ hw)
  · rw [h.lastActive, h.width, h.height]
    exact h3 (h.power ▸ ha)
  · rwa [h.tiles]

/-- Work that keeps both. -/
structure Quiet (s t : State) : Prop where
  places : WithinPlaces s t
  geometry : GeometryKept s t

theorem Quiet.refl (s : State) : Quiet s s := ⟨.refl s, .refl s⟩

theorem Quiet.trans {a b c : State} (h : Quiet a b) (k : Quiet b c) : Quiet a c :=
  ⟨h.places.trans k.places, h.geometry.trans k.geometry⟩

/-! ### What is quiet -/

theorem quiet_comp {s : State} {c : Composition} (h : c.jobs.length ≤ s.comp.jobs.length) : Quiet s { s with comp := c } :=
  ⟨{ WithinPlaces.refl s with jobs := h.trans }, .of_settings rfl rfl⟩

/-- A change of the composition that leaves the job queue alone. -/
theorem quiet_comp_eq {s : State} {c : Composition} (h : c.jobs = s.comp.jobs) : Quiet s { s with comp := c } :=
  quiet_comp (by rw [h])

theorem quiet_lanes (s : State) (l : LaneControl) : Quiet s { s with lanes := l } :=
  ⟨{ WithinPlaces.refl s with }, .of_settings rfl rfl⟩

theorem quiet_planes (s : State) (p : Planes) : Quiet s { s with planes := p } :=
  ⟨{ WithinPlaces.refl s with }, .of_settings rfl rfl⟩

theorem quiet_pins (s : State) (p : Pins) : Quiet s { s with pins := p } :=
  ⟨{ WithinPlaces.refl s with }, .of_settings rfl rfl⟩

theorem quiet_styles (s : State) (l : List Style) : Quiet s { s with styles := l } :=
  ⟨{ WithinPlaces.refl s with }, .of_settings rfl rfl⟩

theorem quiet_resetAwaits (s : State) (b : Bool) : Quiet s { s with link := { s.link with resetAwaits := b } } :=
  ⟨{ WithinPlaces.refl s with }, .of_settings rfl rfl⟩

theorem quiet_flows {s : State} {l : List (List RunRecord)}
    (h : (s.flows.map List.length).sum ≤ 16384 → (l.map List.length).sum ≤ 16384) : Quiet s { s with flows := l } :=
  ⟨{ WithinPlaces.refl s with flows := h }, .of_settings rfl rfl⟩

theorem quiet_notes {s : State} {l : List Note} (h : s.notes.length ≤ 128 → l.length ≤ 128)
    (hn : (s.notes.map (·.id)).Nodup → (l.map (·.id)).Nodup) : Quiet s { s with notes := l } :=
  ⟨{ WithinPlaces.refl s with notes := h, noteIds := hn }, .of_settings rfl rfl⟩

theorem quiet_store {s : State} {st : FontStore} (h : st.held.length = s.store.held.length)
    (hw : s.store.writeQueue.length ≤ 2 → st.writeQueue.length ≤ 2) : Quiet s { s with store := st } :=
  ⟨{ WithinPlaces.refl s with held := h, writes := hw }, .of_settings rfl rfl⟩

theorem quiet_notices {s : State} {n : NoticeBuffer} (h : s.notices.buffer.length ≤ 64 → n.buffer.length ≤ 64)
    (hq : s.notices.nextSeq < 65536 → n.nextSeq < 65536) : Quiet s { s with notices := n } :=
  ⟨{ WithinPlaces.refl s with notices := h, nextSeq := hq }, .of_settings rfl rfl⟩

theorem quiet_sched {s : State} {c : Scheduler} (ht : c.tiles.length = s.sched.tiles.length)
    (hq : s.sched.queue.length ≤ 24 → c.queue.length ≤ 24)
    (hi : 1 ≤ s.sched.nextId ∧ s.sched.nextId ≤ 65535 → 1 ≤ c.nextId ∧ c.nextId ≤ 65535) : Quiet s { s with sched := c } :=
  ⟨{ WithinPlaces.refl s with updates := hq, nextId := hi }, .of_settings ht rfl⟩

/-- A change of the tile records alone. -/
theorem quiet_tiles {s : State} {l : List TileRec} (h : l.length = s.sched.tiles.length) :
    Quiet s { s with sched := { s.sched with tiles := l } } :=
  quiet_sched h id id

/-- A posting keeps the notice buffer within its places (R157, R159). -/
theorem post_quiet (b : NoticeBody) (s : State) : Quiet s (post b s) := by
  obtain ⟨hb, hq⟩ := postNotice_cases (if applied s 11 = 1 then some s.lanes.frameCount else none) b s.notices
  refine quiet_notices (fun h => ?_) (fun _ => ?_)
  · rcases hb with ⟨hl, heq, -⟩ | ⟨-, heq, -⟩
    · rw [heq, List.length_append]
      exact hl
    · rwa [heq]
  · rw [hq]
    exact Nat.mod_lt _ (by decide)

/-- Queueing an update keeps the update queue within its places (R122, R123, R124). -/
theorem queueUpdate_quiet (u : NewUpdate) (s : State) : Quiet s { s with sched := (queueUpdate u s.sched).1 } := by
  obtain ⟨ht, -, hq, hi⟩ := queueUpdate_frame u s.sched
  exact quiet_sched (congrArg List.length ht) hq hi

theorem applied_boundary {c : SettingClass} (hc : c ≠ .standby) (s : State) {id : Nat} (hid : id ≤ 2) :
    (setting (applyBoundary c s.settings) id).applied = applied s id := by
  have hne : settingClass id ≠ c := by
    rw [settingClass, if_pos hid]
    exact hc.symm
  rw [setting_applyBoundary, if_neg (fun h => hne h.2)]
  rfl

@[simp] theorem applyBoundary_lastActive (c : SettingClass) (t : Settings) : (applyBoundary c t).lastActive = t.lastActive := by
  unfold applyBoundary applyClass
  split <;> rfl

/-- A boundary other than that of STANDBY changes no panel dimension (R166). -/
theorem applyBoundary_quiet {c : SettingClass} (hc : c ≠ .standby) (s : State) :
    Quiet s { s with settings := applyBoundary c s.settings } :=
  ⟨{ WithinPlaces.refl s with },
    ⟨rfl, applied_boundary hc s (by decide), applied_boundary hc s (by decide), applyBoundary_lastActive _ _,
      applyBoundary_power _ _⟩⟩

/-- Drawing is quiet (R104, R111). -/
theorem Drawn.quiet {s t : State} (h : Drawn s t) : Quiet s t := by
  rw [h.1]
  exact (quiet_planes s { s.planes with w := t.planes.w }).trans
    (quiet_tiles (s := { s with planes := { s.planes with w := t.planes.w } }) h.2.2.1)

theorem withJob_quiet (j : Job) (s : State) : Quiet s (withJob j s) := quiet_comp_eq rfl

end Sys2Proof.Machine
end

section
/-! SUPPORT. How frame records, the live order, the retint queue and the started job fit together, said of a composition
alone, and what each operation on a composition does to it (R45, R50, R52, R53, R56). -/

namespace Sys2Proof.Machine

/-! ### The fit of a composition -/

/-- A retint job belongs to a LIVE record, or runs on after that record was released (R45, R56). -/
def EntryFits (f : FrameRec) (e : RetintEntry) : Prop :=
  (f.state = .live ∧ f.gen = e.gen ∧ ∀ r, e.run = some r → r.released = false)
    ∨ (f.state = .free ∧ ∃ r, e.run = some r ∧ r.released = true)

/-- A started job's record is OPEN, of its generation and flow, with room for a line before the OVERLAY pass (R49, R52). -/
def JobFits (f : FrameRec) (j : Job) : Prop :=
  f.state = .opened ∧ f.gen = j.gen ∧ f.flow = j.spec.flow ∧ (beforeOverlay j.phase = true → f.lines.length < 256)

/-- `RecordsWf` without the power state; its two bounds on lengths follow. -/
structure RecordsFit (c : Composition) : Prop where
  frames : c.frames.length = 8
  lines : ∀ i, (frameAt c i).lines.length ≤ 256
  order : c.liveOrder.Nodup
  live : ∀ i, i ∈ c.liveOrder ↔ i < 8 ∧ (frameAt c i).state = .live
  slots : (c.retints.map (·.slot)).Nodup
  entries : ∀ e ∈ c.retints, e.slot < 8 ∧ EntryFits (frameAt c e.slot) e
  job : ∀ j, c.started = some j → j.slot < 8 ∧ JobFits (frameAt c j.slot) j
  opened : ∀ i, (frameAt c i).state = .opened → ∃ j, c.started = some j ∧ j.slot = i

/-- Distinct numbers below 8 are at most eight. -/
theorem length_le_of_nodup_lt {l : List Nat} (h : l.Nodup) (hl : ∀ i ∈ l, i < 8) : l.length ≤ 8 := by
  have := (h.subperm (fun i hi => List.mem_range.mpr (hl i hi)) : List.Subperm l (List.range 8)).length_le
  simpa using this

theorem RecordsFit.slot_lt {c : Composition} (h : RecordsFit c) : ∀ i ∈ c.retints.map (·.slot), i < 8 := by
  intro i hi
  obtain ⟨e, he, rfl⟩ := List.mem_map.mp hi
  exact (h.entries e he).1

theorem recordsWf_iff (s : State) :
    RecordsWf s ↔ RecordsFit s.comp
      ∧ (s.settings.power ≠ .active → s.comp.started = none ∧ s.comp.path = .free ∧ s.comp.commit = .empty) := by
  constructor
  · rintro ⟨h1, h2, -, h3, h4, -, h5, h6, h7, h8, h9⟩
    exact ⟨⟨h1, h2, h3, h4, h5, h6, h7, h8⟩, h9⟩
  · rintro ⟨h, hp⟩
    exact ⟨h.frames, h.lines, length_le_of_nodup_lt h.order (fun i hi => ((h.live i).mp hi).1), h.order, h.live,
      by simpa using length_le_of_nodup_lt h.slots h.slot_lt, h.slots, h.entries, h.job, h.opened, hp⟩

/-- The fit speaks of four fields of the composition alone. -/
theorem RecordsFit.of_eq {c d : Composition} (h : RecordsFit c) (hf : d.frames = c.frames) (ho : d.liveOrder = c.liveOrder)
    (hr : d.retints = c.retints) (hs : d.started = c.started) : RecordsFit d := by
  have hfr : ∀ i, frameAt d i = frameAt c i := fun i => by rw [frameAt, frameAt, hf]
  constructor <;> simp only [hf, ho, hr, hs, hfr]
  · exact h.frames
  · exact h.lines
  · exact h.order
  · exact h.live
  · exact h.slots
  · exact h.entries
  · exact h.job
  · exact h.opened

/-- A retint job's record is not OPEN. -/
theorem EntryFits.not_opened {f : FrameRec} {e : RetintEntry} (h : EntryFits f e) : f.state ≠ .opened := by
  rcases h with ⟨h, -⟩ | ⟨h, -⟩ <;> rw [h] <;> decide

/-- What an entry's fit reads of its record. -/
theorem EntryFits.of_eq {f g : FrameRec} {e : RetintEntry} (h : EntryFits f e) (hs : g.state = f.state)
    (hg : g.gen = f.gen) : EntryFits g e := by
  unfold EntryFits
  rw [hs, hg]
  exact h

/-- No retint job names the slot of an OPEN record. -/
theorem RecordsFit.not_mem_of_opened {c : Composition} (h : RecordsFit c) {k : Nat} (hk : (frameAt c k).state = .opened) :
    k ∉ c.retints.map (·.slot) := by
  intro hm
  obtain ⟨e, he, rfl⟩ := List.mem_map.mp hm
  exact (h.entries e he).2.not_opened hk

/-! ### Records -/

/-- A record changed in its ranges, end, snapshot, stack or lines, together with the started job. -/
theorem RecordsFit.withFrame {c : Composition} (h : RecordsFit c) {k : Nat} (hk : k < 8) {f : FrameRec} {st : Option Job}
    (hs : f.state = (frameAt c k).state) (hg : f.gen = (frameAt c k).gen) (hl : f.lines.length ≤ 256)
    (hj : ∀ j, st = some j → ∃ i, c.started = some i ∧ i.slot = j.slot
      ∧ JobFits (if j.slot = k then f else frameAt c j.slot) j)
    (hst : c.started.isSome = true → st.isSome = true) :
    RecordsFit { Machine.withFrame k f c with started := st } := by
  have hfr : ∀ i, frameAt { Machine.withFrame k f c with started := st } i = if i = k then f else frameAt c i :=
    fun i => frameAt_withFrame k i f c (by rw [h.frames]; exact hk)
  have hstate : ∀ i, (if i = k then f else frameAt c i).state = (frameAt c i).state := by
    intro i
    split
    · next hi => rw [hi, hs]
    · rfl
  constructor <;> simp only [hfr, hstate]
  · simpa [Machine.withFrame] using h.frames
  · intro i
    split
    · exact hl
    · exact h.lines i
  · exact h.order
  · exact h.live
  · exact h.slots
  · intro e he
    obtain ⟨hlt, hfit⟩ := h.entries e he
    refine ⟨hlt, hfit.of_eq (hstate _) ?_⟩
    split
    · next hi => rw [hi, hg]
    · rfl
  · intro j hsj
    obtain ⟨i, hi, hslot, hfits⟩ := hj j hsj
    exact ⟨hslot ▸ (h.job i hi).1, hfits⟩
  · intro i hi
    obtain ⟨j, hj0, hjs⟩ := h.opened i hi
    obtain ⟨j', hj'⟩ := Option.isSome_iff_exists.mp (hst (by rw [hj0]; rfl))
    obtain ⟨i0, hi0, hslot, -⟩ := hj j' hj'
    rw [hj0] at hi0
    cases hi0
    exact ⟨j', hj', hslot ▸ hjs⟩

/-- A record changed in its ranges, end, snapshot or stack. -/
theorem RecordsFit.withFrame_same {c : Composition} (h : RecordsFit c) {k : Nat} (hk : k < 8) {f : FrameRec}
    (hs : f.state = (frameAt c k).state) (hg : f.gen = (frameAt c k).gen) (hf : f.flow = (frameAt c k).flow)
    (hl : f.lines = (frameAt c k).lines) : RecordsFit (Machine.withFrame k f c) := by
  refine (h.withFrame hk (f := f) (st := c.started) hs hg (by rw [hl]; exact h.lines k) (fun j hj => ?_) id).of_eq
    rfl rfl rfl rfl
  refine ⟨j, hj, rfl, ?_⟩
  have hfit := (h.job j hj).2
  split
  · next hi =>
    rw [hi] at hfit
    obtain ⟨h1, h2, h3, h4⟩ := hfit
    exact ⟨hs.trans h1, hg.trans h2, hf.trans h3, by rw [hl]; exact h4⟩
  · exact hfit

/-- The started job moves on, its record with it (R51, R52). -/
theorem RecordsFit.withFrame_job {c : Composition} (h : RecordsFit c) {j : Job} (hj : c.started = some j) {j' : Job}
    (hslot : j'.slot = j.slot) (hgen : j'.gen = j.gen) (hflow : j'.spec.flow = j.spec.flow) {f : FrameRec}
    (hs : f.state = (frameAt c j.slot).state) (hg : f.gen = (frameAt c j.slot).gen)
    (hf : f.flow = (frameAt c j.slot).flow) (hl : f.lines.length ≤ 256)
    (hb : beforeOverlay j'.phase = true → f.lines.length < 256) :
    RecordsFit { Machine.withFrame j.slot f c with started := some j' } := by
  obtain ⟨hlt, h1, h2, h3, -⟩ := h.job j hj
  refine h.withFrame hlt hs hg hl (fun i hi => ?_) (fun _ => rfl)
  cases hi
  refine ⟨j, hj, hslot.symm, ?_⟩
  rw [if_pos hslot]
  exact ⟨hs.trans h1, hg.trans (h2.trans hgen.symm), hf.trans (h3.trans hflow.symm), hb⟩

/-- The started job moves on, its record as it stands. -/
theorem RecordsFit.withStarted {c : Composition} (h : RecordsFit c) {j : Job} (hj : c.started = some j) {j' : Job}
    (hslot : j'.slot = j.slot) (hgen : j'.gen = j.gen) (hflow : j'.spec.flow = j.spec.flow)
    (hb : beforeOverlay j'.phase = true → (frameAt c j.slot).lines.length < 256) :
    RecordsFit { c with started := some j' } := by
  have hlt := (h.job j hj).1
  refine (h.withFrame_job hj hslot hgen hflow (f := frameAt c j.slot) rfl rfl rfl (h.lines _) hb).of_eq ?_ rfl rfl rfl
  have hlen : j.slot < c.frames.length := by rw [h.frames]; exact hlt
  simp [Machine.withFrame, frameAt, List.getD_eq_getElem?_getD, List.getElem?_eq_getElem hlen]

/-! ### Releases (R56) -/

/-- What a release leaves of the retint queue: each entry of another record, and a RUNNING entry told to stop. -/
theorem mem_dropRetints {slot gen : Nat} {l : List RetintEntry} {e : RetintEntry} (h : e ∈ dropRetints slot gen l) :
    (e ∈ l ∧ ¬(e.slot = slot ∧ e.gen = gen))
      ∨ ∃ e0 ∈ l, ∃ r, e0.slot = slot ∧ e0.gen = gen ∧ e0.run = some r
        ∧ e = { e0 with run := some { r with released := true } } := by
  unfold dropRetints at h
  obtain ⟨e0, h0, rfl⟩ := List.mem_map.mp h
  obtain ⟨hm, hf⟩ := List.mem_filter.mp h0
  by_cases hs : e0.slot = slot ∧ e0.gen = gen
  · obtain ⟨rfl, rfl⟩ := hs
    cases hr : e0.run with
    | none => simp [hr] at hf
    | some r => exact .inr ⟨e0, hm, r, rfl, rfl, hr, by simp⟩
  · have hne : ¬(e0.slot == slot && e0.gen == gen) = true := by simpa using hs
    rw [if_neg hne]
    exact .inl ⟨hm, hs⟩

theorem dropRetints_slots (slot gen : Nat) (l : List RetintEntry) :
    ((dropRetints slot gen l).map (·.slot)).Sublist (l.map (·.slot)) := by
  have heq : (dropRetints slot gen l).map (·.slot)
      = (l.filter (fun e => !(e.slot == slot && e.gen == gen && e.run.isNone))).map (·.slot) := by
    rw [dropRetints, List.map_map]
    refine List.map_congr_left fun e _ => ?_
    simp only [Function.comp]
    split <;> rfl
  rw [heq]
  exact List.filter_sublist.map _

/-- A held record released, with what is left of the started job: `st` keeps the job of another slot (R56). -/
theorem RecordsFit.release {c : Composition} (h : RecordsFit c) {k : Nat} (hk : k < 8) {st : Option Job}
    (hheld : (frameAt c k).state ≠ .free) (hj : ∀ j, st = some j → c.started = some j ∧ j.slot ≠ k)
    (hst : ∀ j, c.started = some j → j.slot ≠ k → st = some j) :
    RecordsFit { releaseFrame k c with started := st } := by
  have hfr : ∀ i, frameAt { releaseFrame k c with started := st } i
      = if i = k then FrameRec.vacant (frameAt c k).gen else frameAt c i :=
    fun i => frameAt_releaseFrame k i c (by rw [h.frames]; exact hk)
  constructor <;> simp only [hfr]
  · simpa using h.frames
  · intro i
    split
    · exact Nat.zero_le _
    · exact h.lines i
  · exact h.order.filter _
  · intro i
    simp only [releaseFrame, List.mem_filter, bne_iff_ne, h.live i]
    by_cases hi : i = k
    · simp [hi, FrameRec.vacant]
    · simp [hi]
  · exact h.slots.sublist (dropRetints_slots _ _ _)
  · intro e he
    rcases mem_dropRetints he with ⟨hm, hne⟩ | ⟨e0, hm, r, rfl, -, -, rfl⟩
    · obtain ⟨hlt, hfit⟩ := h.entries e hm
      refine ⟨hlt, ?_⟩
      have hslot : e.slot ≠ k := by
        rintro rfl
        rcases hfit with ⟨-, hgen, -⟩ | ⟨hfree, -⟩
        · exact hne ⟨rfl, hgen.symm⟩
        · exact hheld hfree
      rw [if_neg hslot]
      exact hfit
    · refine ⟨hk, ?_⟩
      rw [if_pos rfl]
      exact .inr ⟨rfl, _, rfl, rfl⟩
  · intro j hsj
    obtain ⟨hc, hne⟩ := hj j hsj
    rw [if_neg hne]
    exact h.job j hc
  · intro i hi
    split at hi
    · cases hi
    · next hne =>
      obtain ⟨j, hc, rfl⟩ := h.opened i hi
      exact ⟨j, hst j hc hne, rfl⟩

/-- A LIVE record released (R56). -/
theorem RecordsFit.release_live {c : Composition} (h : RecordsFit c) {k : Nat} (hk : k < 8)
    (hl : (frameAt c k).state = .live) : RecordsFit (releaseFrame k c) := by
  have hne : ∀ j, c.started = some j → j.slot ≠ k := by
    rintro j hj rfl
    rw [(h.job j hj).2.1] at hl
    cases hl
  exact (h.release hk (st := c.started) (by rw [hl]; decide) (fun j hj => ⟨hj, hne j hj⟩) (fun j hj _ => hj)).of_eq
    rfl rfl rfl rfl

/-- LIVE records released one after the other (R56). -/
theorem RecordsFit.releaseAll_live {l : List Nat} (hl : l.Nodup) {c : Composition} (h : RecordsFit c)
    (hc : ∀ i ∈ l, i < 8 ∧ (frameAt c i).state = .live) : RecordsFit (releaseAll l c) := by
  induction l generalizing c with
  | nil => exact h
  | cons a l ih =>
    obtain ⟨hna, hl⟩ := List.nodup_cons.mp hl
    obtain ⟨ha, hla⟩ := hc a (List.mem_cons_self ..)
    refine ih hl (h.release_live ha hla) fun i hi => ?_
    obtain ⟨hlt, hli⟩ := hc i (List.mem_cons_of_mem _ hi)
    rw [frameAt_releaseFrame a i c (by rw [h.frames]; exact ha), if_neg (by rintro rfl; exact hna hi)]
    exact ⟨hlt, hli⟩

/-- The started job ends without a record: its slot is released (R54, R55). -/
theorem RecordsFit.dropStarted_release {c : Composition} (h : RecordsFit c) {j : Job} (hj : c.started = some j) (j' : Job) :
    RecordsFit (dropStarted j' (releaseFrame j.slot c)) := by
  obtain ⟨hlt, hopen, -⟩ := h.job j hj
  refine (h.release hlt (st := none) (by rw [hopen]; decide) (fun _ hn => by cases hn) (fun i hi hne => ?_)).of_eq
    rfl rfl rfl rfl
  rw [hj] at hi
  cases hi
  exact absurd rfl hne

/-! ### The retint queue (R45, R97, R100) -/

/-- A retint job joins the queue for a LIVE record that has none (R45). -/
theorem RecordsFit.enqueueRetint {c : Composition} (h : RecordsFit c) {k : Nat} (hk : k < 8)
    (hl : (frameAt c k).state = .live) (hn : k ∉ c.retints.map (·.slot)) :
    RecordsFit (Machine.enqueueRetint k (frameAt c k).gen c) := by
  refine ⟨h.frames, h.lines, h.order, h.live, ?_, fun e he => ?_, h.job, h.opened⟩
  · simpa [Machine.enqueueRetint] using List.Nodup.append h.slots (List.nodup_singleton k) (by simpa using hn)
  · rcases List.mem_append.mp he with he | he
    · exact h.entries e he
    · rw [List.mem_singleton.mp he]
      exact ⟨hk, .inl ⟨hl, rfl, fun r hr => by cases hr⟩⟩

/-- The entries of the queue replaced by entries of the same records that still fit them, or dropped. -/
theorem RecordsFit.withRetints {c : Composition} (h : RecordsFit c) {l : List RetintEntry}
    (hs : (l.map (·.slot)).Sublist (c.retints.map (·.slot)))
    (he : ∀ e ∈ l, e.slot < 8 ∧ EntryFits (frameAt c e.slot) e) : RecordsFit { c with retints := l } :=
  ⟨h.frames, h.lines, h.order, h.live, h.slots.sublist hs, he, h.job, h.opened⟩

end Sys2Proof.Machine
end

section
/-! SUPPORT. What a step can do, said once: it presents a request, takes an event or idles; a request reaches its owner, whose
work is followed by a reply; and the link's own work leaves every other block alone. -/

namespace Sys2Proof.Machine

/-! ### The owner's part of a request -/

/-- The state that a request's owner leaves, before its reply is filled or held (Table 9-3). -/
def ownerState (r : Request) (s : State) : State :=
  match r with
  | .status => s
  | .reset => (takeReset s).1
  | .set id v => (takeSet id v s).1
  | .get _ => s
  | .activate => (takeActivate s).1
  | .standby => (takeStandby s).1
  | .setTemperature d => (takeSetTemperature d s).1
  | .readNotices m => (takeReadNotices m s).1
  | .clearNotices => (takeClearNotices s).1
  | .flowAppend slot l => (takeFlowAppend slot l s).1
  | .flowClear slot => (takeFlowClear slot s).1
  | .flowInfo _ => s
  | .styleDefine id f => (takeStyleDefine id f s).1
  | .styleRead _ => s
  | .fontBegin slot h => (takeFontBegin slot h s).1
  | .glyphPut slot i l => (takeGlyphPut slot i l s).1
  | .fontEnd slot => (takeFontEnd slot s).1
  | .fontDrop slot => (takeFontDrop slot s).1
  | .fontLock slot => (takeFontLock slot s).1
  | .fontCheck slot => (takeFontCheck slot s).1
  | .fontList => s
  | .glyphGet _ _ => s
  | .protectRaise b => (takeProtectRaise b s).1
  | .storeWipe => (takeStoreWipe s).1
  | .compose f => (takeCompose f s).1
  | .composeAbort t => (takeComposeAbort t s).1
  | .frameRelease slot gen => (takeFrameRelease slot gen s).1
  | .frameInfo _ _ _ => s
  | .locate _ _ _ _ => s
  | .noteAdd n => (takeNoteAdd n s).1
  | .noteChange id c => (takeNoteChange id c s).1
  | .noteRemove id => (takeNoteRemove id s).1
  | .noteList _ => s
  | .commit m c r => (takeCommit m c r s).1
  | .refresh m c r => (takeRefresh m c r s).1
  | .queueInfo => s

/-! The reading requests change nothing. -/

theorem takeGet_state (id : Nat) (s : State) : (takeGet id s).1 = s := by unfold takeGet; split <;> rfl
theorem takeFlowInfo_state (slot : Nat) (s : State) : (takeFlowInfo slot s).1 = s := by unfold takeFlowInfo; split <;> rfl
theorem takeStyleRead_state (id : Nat) (s : State) : (takeStyleRead id s).1 = s := by unfold takeStyleRead; split <;> rfl
theorem takeGlyphGet_state (slot index : Nat) (s : State) : (takeGlyphGet slot index s).1 = s := by
  unfold takeGlyphGet
  simp only
  repeat' split
  all_goals rfl
theorem takeFrameInfo_state (slot gen line : Nat) (s : State) : (takeFrameInfo slot gen line s).1 = s := by
  unfold takeFrameInfo
  split <;> rfl
theorem takeLocate_state (slot gen x y : Nat) (s : State) : (takeLocate slot gen x y s).1 = s := by
  unfold takeLocate
  simp only
  repeat' split
  all_goals rfl

/-- A state with a request's reply: filled at once, or held in the order of taking (R27, R152, R153). -/
def RepliedTo (u t : State) : Prop :=
  (∃ tag kind a, t = answer tag kind a u) ∨ ∃ tag kind a, t = holdReply tag kind a u

theorem decided_repliedTo (tag kind : Byte) {x : State × (Status × ReplyFields)} {u : State} (h : x.1 = u) :
    RepliedTo u (decided tag kind x) := .inl ⟨tag, kind, x.2, by rw [← h]; rfl⟩

theorem decidedInTurn_repliedTo (tag kind : Byte) {x : State × Option (Status × ReplyFields)} {u : State} (h : x.1 = u) :
    RepliedTo u (decidedInTurn tag kind x) := .inr ⟨tag, kind, x.2, by rw [← h]; rfl⟩

/-- A request's owner does its work, and the request is replied to (R152, Table 9-3). -/
theorem ownerTakes_repliedTo (tag kind : Byte) (r : Request) (s : State) :
    RepliedTo (ownerState r s) (ownerTakes tag kind r s) := by
  cases r with
  | get id => exact decided_repliedTo _ _ (takeGet_state id s)
  | flowInfo slot => exact decided_repliedTo _ _ (takeFlowInfo_state slot s)
  | styleRead id => exact decided_repliedTo _ _ (takeStyleRead_state id s)
  | glyphGet slot i => exact decidedInTurn_repliedTo _ _ (takeGlyphGet_state slot i s)
  | frameInfo slot gen line => exact decided_repliedTo _ _ (takeFrameInfo_state slot gen line s)
  | locate slot gen x y => exact decided_repliedTo _ _ (takeLocate_state slot gen x y s)
  | fontBegin | glyphPut | fontEnd | fontDrop | fontLock | fontCheck | fontList | protectRaise | storeWipe =>
    exact decidedInTurn_repliedTo _ _ rfl
  | _ => exact decided_repliedTo _ _ rfl

/-- What a hand-over starts its reply from: the state as it stands when a check refuses, or as the owner leaves it. -/
inductive TakenFrom (s : State) : State → Prop
  | refused : TakenFrom s s
  | owner (r : Request) : TakenFrom s (ownerState r s)

/-- A hand-over replies to the request, after its owner's work or without it (R152). -/
theorem handKnown_repliedTo (tag kind : Byte) (r : Option Request) (s : State) :
    ∃ u, TakenFrom s u ∧ RepliedTo u (handKnown tag kind r s) := by
  unfold handKnown
  split
  · exact ⟨s, .refused, .inl ⟨_, _, _, rfl⟩⟩
  · split
    · exact ⟨s, .refused, .inl ⟨_, _, _, rfl⟩⟩
    · next q => exact ⟨_, .owner q, ownerTakes_repliedTo tag kind q s⟩

theorem handRequest_repliedTo (q : RawRequest) (s : State) :
    ∃ u, TakenFrom s u ∧ RepliedTo u (handRequest q s) := by
  unfold handRequest
  split
  · exact handKnown_repliedTo _ _ _ s
  · exact ⟨s, .refused, .inl ⟨_, _, _, rfl⟩⟩

/-- A place is FREE for a request that is handed over (R152). -/
theorem mayHandOver_free {s : State} (h : mayHandOver s = true) : s.link.reserved + s.link.filled.length < 8 := by
  simp only [mayHandOver, Bool.and_eq_true, decide_eq_true_eq] at h
  have := h.2
  simp only [freePlaces, Config.replyPlaces] at this
  omega

/-- Where a presented request goes: nowhere while the part is held in reset, to its owner, or into the link as a frame
(R152, R154, R171). -/
theorem present_cases (tag : Byte) (r : Request) (s : State) :
    present tag r s = s ∨ (∃ q, present tag r s = arrive q s)
      ∨ s.link.reserved + s.link.filled.length < 8 ∧ ∃ u, TakenFrom s u ∧ RepliedTo u (present tag r s) := by
  unfold present
  split
  · exact .inl rfl
  · split
    · next h => exact .inr (.inr ⟨mayHandOver_free (Bool.and_eq_true _ _ ▸ h).2, handKnown_repliedTo _ _ _ s⟩)
    · exact .inr (.inl ⟨_, rfl⟩)

/-- A hand-over takes the oldest request, or does nothing (R152). -/
theorem handOver_cases (s : State) :
    handOver s = s
      ∨ ∃ q rest, s.link.requests = q :: rest ∧ s.link.reserved + s.link.filled.length < 8
        ∧ ∃ u, TakenFrom { s with link := { s.link with requests := rest } } u ∧ RepliedTo u (handOver s) := by
  unfold handOver
  split
  · exact .inl rfl
  · next q rest hq =>
    split
    · next h => exact .inr ⟨q, rest, hq, mayHandOver_free h, handRequest_repliedTo q _⟩
    · exact .inl rfl

/-! ### The blocks beside the link -/

/-- The composition, the notes, the scheduler and the settings stay. -/
structure LinkOnly (s t : State) : Prop where
  comp : t.comp = s.comp
  notes : t.notes = s.notes
  sched : t.sched = s.sched
  settings : t.settings = s.settings

theorem LinkOnly.refl (s : State) : LinkOnly s s := ⟨rfl, rfl, rfl, rfl⟩

theorem LinkOnly.trans {a b c : State} (h : LinkOnly a b) (k : LinkOnly b c) : LinkOnly a c :=
  ⟨k.comp.trans h.comp, k.notes.trans h.notes, k.sched.trans h.sched, k.settings.trans h.settings⟩

theorem RepliedTo.linkOnly {u t : State} (h : RepliedTo u t) : LinkOnly u t := by
  rcases h with ⟨tag, kind, a, rfl⟩ | ⟨tag, kind, a, rfl⟩ <;> exact ⟨rfl, rfl, rfl, rfl⟩

theorem arrive_linkOnly (q : RawRequest) (s : State) : LinkOnly s (arrive q s) := by
  unfold arrive
  repeat' split
  all_goals exact ⟨rfl, rfl, rfl, rfl⟩

theorem receiveByte_linkOnly (s : State) (b : Byte) : LinkOnly s (receiveByte s b) := by
  unfold receiveByte
  split
  · exact .refl s
  · split
    case h_6 kept high _ =>
      unfold judge
      split
      · exact (show LinkOnly s (withHunt .hunt s) from ⟨rfl, rfl, rfl, rfl⟩).trans (arrive_linkOnly _ _)
      · exact ⟨rfl, rfl, rfl, rfl⟩
    case h_4 => split <;> exact ⟨rfl, rfl, rfl, rfl⟩
    all_goals exact ⟨rfl, rfl, rfl, rfl⟩

/-- A byte given leaves the other blocks alone, unless it is the last of a RESET's reply (R153, R156). -/
theorem giveByte_cases (o : Outgoing) (s : State) :
    LinkOnly s (giveByte o s) ∨ ∃ u, giveByte o s = resetPart .request u := by
  unfold giveByte
  split
  · simp only
    split
    · exact .inl ⟨rfl, rfl, rfl, rfl⟩
    · unfold finishReply
      simp only
      split
      · exact .inr ⟨_, rfl⟩
      · exact .inl ⟨rfl, rfl, rfl, rfl⟩
  · exact .inl ⟨rfl, rfl, rfl, rfl⟩

theorem exchange_cases (o : Outgoing) (b : Byte) (s : State) :
    LinkOnly s (exchange o b s) ∨ ∃ u, exchange o b s = resetPart .request u := by
  have idle : LinkOnly s { s with link := { s.link with port := Port.idle } } := ⟨rfl, rfl, rfl, rfl⟩
  exact (giveByte_cases o _).imp_left (idle.trans (receiveByte_linkOnly _ b)).trans

theorem clockBit_cases (bit : Bool) (s : State) :
    LinkOnly s (clockBit bit s) ∨ ∃ u, clockBit bit s = resetPart .request u := by
  unfold clockBit
  simp only
  split
  · exact .inl ⟨rfl, rfl, rfl, rfl⟩
  · have given : ∀ v, LinkOnly s (noteBit v s) := fun v => ⟨rfl, rfl, rfl, rfl⟩
    exact (exchange_cases _ _ _).imp_left (given _).trans

/-- A condition that every clock, every release of select and the beginning of the record keep holds after whatever the host
does at the port (R147). -/
theorem portEvents_keeps {P : State → Prop} (clock : ∀ b s, P s → P (clockBit b s))
    (release : ∀ s, P s → P (releaseSelect s)) (clear : ∀ s, P s → P (clearGiven s)) (l : List PortEvent) {s : State}
    (h : P s) : P (portEvents l s) := by
  refine List.foldlRecOn l portEvent (clear s h) fun u hu e _ => ?_
  cases e with
  | byte b =>
    rw [portEvent]
    generalize bitsOfByte b = bits
    exact List.foldlRecOn bits _ hu fun v hv bit _ => clock bit v hv
  | clock b => exact clock b u hu
  | release => exact release u hu

/-- A condition of the other blocks that a reset establishes holds after whatever the host does at the port. -/
theorem portEvents_keeps_blocks {P : State → Prop} (link : ∀ {s t}, LinkOnly s t → P s → P t)
    (reset : ∀ c u, P (resetPart c u)) (l : List PortEvent) {s : State} (h : P s) : P (portEvents l s) := by
  refine portEvents_keeps (P := P) (fun b u hu => ?_) (fun u => link ⟨rfl, rfl, rfl, rfl⟩)
    (fun u => link ⟨rfl, rfl, rfl, rfl⟩) l h
  rcases clockBit_cases b u with hc | ⟨v, hc⟩
  · exact link hc hu
  · rw [hc]
    exact reset _ _

/-! ### Steps -/

/-- The state that an event command leaves. -/
def eventState (i : Instr) (s : State) : State :=
  match i with
  | .frameReceived events => portEvents events s
  | .handOver => handOver s
  | .replySent => replySent s
  | .fontEndComplete => fontEndComplete s
  | .fontDropComplete => fontDropComplete s
  | .fontLockComplete => fontLockComplete s
  | .fontCheckComplete => fontCheckComplete s
  | .protectRaiseComplete => protectRaiseComplete s
  | .storeWipeComplete => storeWipeComplete s
  | .writeEntryProgrammed => writeEntryProgrammed s
  | .rasterPathGrant => rasterPathGrant s
  | .replayEnd => replayEnd s
  | .pagePaperFill => pagePaperFill s
  | .lineSet => lineSet s
  | .glyphSpanDrawn => glyphSpanDrawn s
  | .overlayLineDone => overlayLineDone s
  | .retintLineRedrawn => retintLineRedrawn s
  | .latchTile => latchTile s
  | .panelFrameBoundary => panelFrameBoundary s
  | .laneFrame lane => laneFrame lane s
  | .dispatchScan => dispatchScan s
  | .updateCompletion lane => updateCompletion lane s
  | .deghostExpiry => deghostExpiry s
  | .temperatureStale => temperatureStale s
  | .resetPin => assertReset s
  | .resetPinRelease => releaseReset s
  | .startupScanEnd => startupScanEnd s
  | .abandonedFrame second => portEvents [.byte second] s
  | .driveHoldLevelChange asserted => setDriveHold asserted s
  | _ => s

/-- A command presents its request or takes its event. -/
theorem exec_cases (i : Instr) (s : State) :
    (∃ tag r, i.asRequest = some (tag, r) ∧ exec i s = .next (present tag r s))
      ∨ i.asRequest = none ∧ exec i s = .next (eventState i s) := by
  cases i <;> first | exact .inr ⟨rfl, rfl⟩ | exact .inl ⟨_, _, rfl, rfl⟩

/-- A step, over a queue of commands: it idles, presents a request or takes an event. -/
inductive Stepped (s : State) : State → Prop
  | idles : Stepped s (idle s)
  | presents (tag : Byte) (r : Request) : Stepped s (present tag r s)
  | takes (i : Instr) : Stepped s (eventState i s)

theorem step_stepped {s t : State} (h : step s = .next t) : ∃ rest, Stepped { s with pending := rest } t := by
  unfold step at h
  split at h
  · cases h
    exact ⟨s.pending, .idles⟩
  · next c rest _ =>
    refine ⟨rest, ?_⟩
    rcases exec_cases c { s with pending := rest } with ⟨tag, r, -, he⟩ | ⟨-, he⟩ <;> rw [he] at h <;> cases h
    · exact .presents tag r
    · exact .takes c

end Sys2Proof.Machine
end

section
/-! SUPPORT. What the owners of requests and the events do to the bounded tables and the tile table: all of it is quiet, but
for ACTIVATE and STANDBY, which touch the geometry and the power state, and the link's own work. -/

namespace Sys2Proof.Machine

/-! ### Flows (R1, R7, R10) -/

/-- A slot's new content counts in the place of its old one. -/
theorem sum_length_set (l : List (List RunRecord)) (i : Nat) (x : List RunRecord) :
    ((l.set i x).map List.length).sum + (l.getD i []).length ≤ (l.map List.length).sum + x.length := by
  induction l generalizing i with
  | nil => simp
  | cons a l ih =>
    cases i with
    | zero =>
      simp only [List.set_cons_zero, List.map_cons, List.sum_cons, List.getD_cons_zero]
      omega
    | succ i =>
      have := ih i
      simp only [List.set_cons_succ, List.map_cons, List.sum_cons, List.getD_cons_succ]
      omega

theorem takeFlowAppend_quiet (slot : Nat) (records : List RunRecord) (s : State) :
    Quiet s (takeFlowAppend slot records s).1 := by
  unfold takeFlowAppend
  iterate 2 (split; · exact .refl s)
  split
  · exact .refl s
  · next room =>
    refine quiet_flows fun h => ?_
    have := sum_length_set s.flows slot (flowOf s slot ++ records)
    rw [freeRunPlaces_eq] at room
    simp only [flowOf, List.length_append] at this ⊢
    omega

theorem releaseAll_jobs (l : List Nat) (c : Composition) : (releaseAll l c).jobs = c.jobs :=
  List.foldlRecOn (motive := fun d : Composition => d.jobs = c.jobs) l _ rfl fun _ h i _ => (releaseFrame_jobs i _).trans h

theorem takeFlowClear_quiet (slot : Nat) (s : State) : Quiet s (takeFlowClear slot s).1 := by
  unfold takeFlowClear
  simp only
  iterate 2 (split; · exact .refl s)
  · have emptied : Quiet s { s with flows := s.flows.set slot [] } := by
      refine quiet_flows fun h => ?_
      have := sum_length_set s.flows slot []
      simp only [List.length_nil] at this
      omega
    exact emptied.trans (quiet_comp_eq (releaseAll_jobs _ s.comp))

/-! ### The Font Store (R27 to R39) -/

/-- Work on the Font Store alone: the held replies stay, and the write queue stays within its places (R27, R29). -/
def StoreWork (s t : State) : Prop :=
  ∃ st : FontStore, t = { s with store := st } ∧ st.held = s.store.held
    ∧ (s.store.writeQueue.length ≤ 2 → st.writeQueue.length ≤ 2)

theorem StoreWork.refl (s : State) : StoreWork s s := ⟨s.store, rfl, rfl, id⟩

theorem StoreWork.quiet {s t : State} (h : StoreWork s t) : Quiet s t := by
  obtain ⟨st, rfl, hh, hw⟩ := h
  exact quiet_store (congrArg List.length hh) hw

theorem StoreWork.comp {s t : State} (h : StoreWork s t) : t.comp = s.comp := by
  obtain ⟨st, rfl, -⟩ := h
  rfl

/-- An entry joins a write queue that has room (R29). -/
theorem writes_append {q : List WriteEntry} (e : WriteEntry) (h : ¬q.length ≥ Config.writeQueueMax) :
    (q ++ [e]).length ≤ 2 := by
  simp only [Config.writeQueueMax] at h
  simp only [List.length_append, List.length_singleton]
  omega

theorem takeFontBegin_work (slot : Nat) (h : FontHeader) (s : State) : StoreWork s (takeFontBegin slot h s).1 := by
  unfold takeFontBegin
  iterate 4 (split; · exact .refl s)
  split
  · exact .refl s
  · next room =>
    simp only [Bool.or_eq_true, decide_eq_true_eq, not_or] at room
    exact ⟨_, rfl, rfl, fun _ => writes_append _ room.1⟩

theorem takeGlyphPut_work (slot : Nat) (start : Option Nat) (glyphs : List GlyphRec) (s : State) :
    StoreWork s (takeGlyphPut slot start glyphs s).1 := by
  unfold takeGlyphPut
  simp only
  iterate 7 (split; · exact .refl s)
  split
  · exact ⟨_, rfl, rfl, id⟩
  split
  · exact .refl s
  · next room => exact ⟨_, rfl, rfl, fun _ => writes_append _ room⟩

theorem beginOperation_work (op : StoreOp) (slot : Nat) (s : State) : StoreWork s (beginOperation op slot s) :=
  ⟨_, rfl, rfl, id⟩

theorem takeFontEnd_work (slot : Nat) (s : State) : StoreWork s (takeFontEnd slot s).1 := by
  unfold takeFontEnd
  simp only
  iterate 4 (split; · exact .refl s)
  exact beginOperation_work _ _ s

/-- Dropping entries makes no queue longer. -/
theorem dropUnstarted_length (slot : Nat) (l : List WriteEntry) : (dropUnstarted slot l).length ≤ l.length := by
  cases l with
  | nil => exact Nat.le_refl _
  | cons e l => exact Nat.succ_le_succ (List.length_filter_le _ l)

theorem takeFontDrop_work (slot : Nat) (s : State) : StoreWork s (takeFontDrop slot s).1 := by
  unfold takeFontDrop
  simp only
  iterate 5 (split; · exact .refl s)
  exact ⟨_, rfl, rfl, (dropUnstarted_length slot _).trans⟩

theorem takeFontLock_work (slot : Nat) (s : State) : StoreWork s (takeFontLock slot s).1 := by
  unfold takeFontLock
  simp only
  iterate 7 (split; · exact .refl s)
  exact beginOperation_work _ _ s

theorem takeFontCheck_work (slot : Nat) (s : State) : StoreWork s (takeFontCheck slot s).1 := by
  unfold takeFontCheck
  simp only
  iterate 4 (split; · exact .refl s)
  exact beginOperation_work _ _ s

theorem takeProtectRaise_work (value : Nat) (s : State) : StoreWork s (takeProtectRaise value s).1 := by
  unfold takeProtectRaise
  iterate 5 (split; · exact .refl s)
  exact ⟨_, rfl, rfl, id⟩

theorem takeStoreWipe_work (s : State) : StoreWork s (takeStoreWipe s).1 := by
  unfold takeStoreWipe
  iterate 2 (split; · exact .refl s)
  exact ⟨_, rfl, rfl, id⟩

theorem writeEntryProgrammed_work (s : State) : StoreWork s (writeEntryProgrammed s) := by
  unfold writeEntryProgrammed
  split
  · exact .refl s
  · next e rest hq =>
    refine ⟨_, rfl, rfl, fun h => ?_⟩
    rw [hq] at h
    exact Nat.le_of_succ_le h

/-! ### Notes (R81, R83 to R85, R93) -/

/-- A record reached by a note request: its ranges alone change, and a LIVE one without a retint job gets one
(R93, R94, R96). -/
theorem reachFrame_cases (flow : Nat) (old new : Option (Pos × Pos)) (slot : Nat) (c : Composition) :
    (reachFrame flow old new slot c).1 = c
      ∨ ∃ late retint,
        (reachFrame flow old new slot c).1
            = withFrame slot { frameAt c slot with late := late, retint := retint } c
          ∨ (frameAt c slot).state = .live ∧ retintRuns c slot (frameAt c slot).gen = false
            ∧ retintWaits c slot (frameAt c slot).gen = false
            ∧ (reachFrame flow old new slot c).1
              = enqueueRetint slot (frameAt c slot).gen
                (withFrame slot { frameAt c slot with late := late, retint := retint } c) := by
  unfold reachFrame
  simp only
  split
  · exact .inl rfl
  · next held =>
    split
    · split
      · exact .inl rfl
      · exact .inr ⟨_, _, .inl rfl⟩
    · next notOpened =>
      split
      · exact .inr ⟨_, _, .inl rfl⟩
      · next notRuns =>
        split
        · exact .inr ⟨_, _, .inl rfl⟩
        · next notWaits =>
          refine .inr ⟨_, _, .inr ⟨?_, by simpa using notRuns, by simpa using notWaits, rfl⟩⟩
          cases hs : (frameAt c slot).state with
          | free => simp [hs] at held
          | opened => simp [hs] at notOpened
          | live => rfl

/-- A condition that reaching one record keeps holds after a note request has reached the records. -/
theorem reachFrames_keeps {P : Composition → Prop} (flow : Nat) (old new : Option (Pos × Pos))
    (one : ∀ slot c, slot < 8 → P c → P (reachFrame flow old new slot c).1) {c : Composition} (h : P c) :
    P (reachFrames flow old new c).1 :=
  List.foldlRecOn (motive := fun a : Composition × Nat => P a.1) (List.range Config.frameSlots) _ h
    fun a ha slot hs => one slot a.1 (List.mem_range.mp hs) ha

theorem reachFrames_jobs (flow : Nat) (old new : Option (Pos × Pos)) (c : Composition) :
    (reachFrames flow old new c).1.jobs = c.jobs := by
  refine reachFrames_keeps (P := fun d => d.jobs = c.jobs) flow old new (fun slot d _ h => ?_) rfl
  rcases reachFrame_cases flow old new slot d with he | ⟨_, _, he | ⟨-, -, -, he⟩⟩ <;> rw [he] <;> exact h

/-- A changed note keeps its id, and so the ids of the table stay (R84). -/
theorem replaceNote_ids (l : List Note) (v : Note) : (replaceNote l v).map (·.id) = l.map (·.id) := by
  rw [replaceNote, List.map_map]
  refine List.map_congr_left fun n _ => ?_
  simp only [Function.comp]
  split
  · next h => exact h.symm
  · rfl

/-- A note of a fresh id keeps the ids distinct (R81, R83). -/
theorem noteIds_append {l : List Note} {n : Note} (hn : ¬(findNote l n.id).isSome = true) (h : (l.map (·.id)).Nodup) :
    ((l ++ [n]).map (·.id)).Nodup := by
  rw [List.map_append]
  refine h.append (List.nodup_singleton _) ?_
  simp only [findNote, List.find?_isSome, not_exists, not_and, beq_iff_eq] at hn
  simpa using hn

theorem takeNoteAdd_quiet (f : NoteFields) (s : State) : Quiet s (takeNoteAdd f s).1 := by
  unfold takeNoteAdd
  split
  · exact .refl s
  · next n _ =>
    iterate 2 (split; · exact .refl s)
    split
    · exact .refl s
    · next fresh =>
      split
      · exact .refl s
      · next room =>
        have added : Quiet s { s with notes := s.notes ++ [n] } := by
          refine quiet_notes (fun _ => ?_) (noteIds_append fresh)
          simp only [Config.maxNotes] at room
          simp only [List.length_append, List.length_singleton]
          omega
        exact added.trans (quiet_comp_eq (reachFrames_jobs _ _ _ s.comp))

theorem takeNoteChange_quiet (id : Nat) (c : NoteChanges) (s : State) : Quiet s (takeNoteChange id c s).1 := by
  unfold takeNoteChange
  iterate 2 (split; · exact .refl s)
  split
  · exact .refl s
  · next n _ =>
    simp only
    split
    · exact .refl s
    · have changed : Quiet s { s with notes := replaceNote s.notes (changedNote n c) } := by
        refine quiet_notes (fun h => ?_) (fun h => ?_)
        · rwa [replaceNote, List.length_map]
        · rwa [replaceNote_ids]
      exact changed.trans (quiet_comp_eq (reachFrames_jobs _ _ _ s.comp))

theorem takeNoteRemove_quiet (id : Nat) (s : State) : Quiet s (takeNoteRemove id s).1 := by
  unfold takeNoteRemove
  iterate 2 (split; · exact .refl s)
  have removed : Quiet s { s with notes := s.notes.filter (fun m => m.id != id) } :=
    quiet_notes (List.length_filter_le _ s.notes).trans (fun h => h.sublist (List.filter_sublist.map _))
  exact removed.trans (quiet_comp_eq (reachFrames_jobs _ _ _ s.comp))

/-! ### Composition requests (R43, R55, R57) -/

theorem takeCompose_quiet (f : ComposeFields) (s : State) : Quiet s (takeCompose f s).1 := by
  unfold takeCompose
  iterate 4 (split; · exact .refl s)
  split
  · exact .refl s
  · next room =>
    refine ⟨{ WithinPlaces.refl s with jobs := fun _ => ?_ }, .of_settings rfl rfl⟩
    simp only [Config.composeQueueMax] at room
    simp only [List.length_append, List.length_singleton]
    omega

theorem endAborted_quiet (j : Job) (found : JobState) (s : State) : Quiet s (endAborted j found s) :=
  (quiet_comp_eq (c := dropStarted j (releaseFrame j.slot s.comp)) rfl).trans (post_quiet _ _)

theorem endFailed_quiet (j : Job) (reason : FailReason) (p : Pos) (pass : Pass) (s : State) :
    Quiet s (endFailed j reason p pass s) :=
  (quiet_comp_eq (c := dropStarted j (releaseFrame j.slot s.comp)) rfl).trans (post_quiet _ _)

theorem takeComposeAbort_quiet (tag : Nat) (s : State) : Quiet s (takeComposeAbort tag s).1 := by
  unfold takeComposeAbort
  split
  · exact (quiet_comp (List.length_filter_le _ s.comp.jobs)).trans (post_quiet _ _)
  · split
    · exact .refl s
    · split
      · exact .refl s
      · split
        · exact withJob_quiet _ s
        · exact endAborted_quiet _ _ s

theorem takeFrameRelease_quiet (slot gen : Nat) (s : State) : Quiet s (takeFrameRelease slot gen s).1 := by
  unfold takeFrameRelease
  split
  · exact .refl s
  · exact quiet_comp_eq rfl

theorem takeCommit_quiet (mode cls : Nat) (rect : Option TileRect) (s : State) : Quiet s (takeCommit mode cls rect s).1 := by
  unfold takeCommit
  split
  · exact .refl s
  · split
    · iterate 2 (split; · exact .refl s)
      exact quiet_comp_eq rfl
    · exact .refl s

theorem takeRefresh_quiet (mode cls : Nat) (rect : Option TileRect) (s : State) : Quiet s (takeRefresh mode cls rect s).1 := by
  unfold takeRefresh
  split
  · exact .refl s
  · split
    · split
      · exact .refl s
      · split
        · exact .refl s
        · exact queueUpdate_quiet _ s
    · exact .refl s

/-! ### SET (R164) -/

/-- A write changes no applied value of a setting that is not LIVE (R164). -/
theorem applied_storeSetting (id value : Nat) (t : Settings) {k : Nat} (hk : settingClass k ≠ .live) :
    (setting (storeSetting id value t) k).applied = (setting t k).applied := by
  simp only [setting, storeSetting, List.getD_eq_getElem?_getD, List.getElem?_set]
  by_cases h : id = k
  · subst h
    cases hv : t.values[id]? with
    | none =>
      rw [if_pos rfl, if_neg (by simpa using hv)]
    | some v =>
      have hlt : id < t.values.length := (List.getElem?_eq_some_iff.mp hv).1
      simp [hlt, hk]
  · rw [if_neg h]

theorem takeSet_quiet (id value : Nat) (s : State) : Quiet s (takeSet id value s).1 := by
  unfold takeSet
  iterate 3 (split; · exact .refl s)
  exact ⟨{ WithinPlaces.refl s with },
    ⟨rfl, applied_storeSetting _ _ _ (by decide), applied_storeSetting _ _ _ (by decide), rfl, rfl⟩⟩

/-! ### All owners -/

/-- The requests that change the power state. -/
def changesPower : Request → Bool
  | .activate => true
  | .standby => true
  | _ => false

theorem takeStyleDefine_quiet (id : Nat) (f : StyleFields) (s : State) : Quiet s (takeStyleDefine id f s).1 := by
  unfold takeStyleDefine
  iterate 2 (split; · exact .refl s)
  exact quiet_styles s _

/-- An owner's work is quiet, unless it changes the power state. -/
theorem ownerState_quiet {r : Request} (h : changesPower r = false) (s : State) : Quiet s (ownerState r s) := by
  cases r with
  | activate | standby => cases h
  | set id v => exact takeSet_quiet id v s
  | status | get | flowInfo | styleRead | fontList | glyphGet | frameInfo | locate | noteList | queueInfo => exact .refl s
  | reset => exact quiet_resetAwaits s true
  | setTemperature d => exact quiet_lanes s _
  | readNotices m =>
    exact quiet_notices (List.drop_sublist _ s.notices.buffer).length_le.trans id
  | clearNotices => exact quiet_notices (fun _ => Nat.zero_le _) id
  | flowAppend slot l => exact takeFlowAppend_quiet slot l s
  | flowClear slot => exact takeFlowClear_quiet slot s
  | styleDefine id f => exact takeStyleDefine_quiet id f s
  | fontBegin slot header => exact (takeFontBegin_work slot header s).quiet
  | glyphPut slot i l => exact (takeGlyphPut_work slot i l s).quiet
  | fontEnd slot => exact (takeFontEnd_work slot s).quiet
  | fontDrop slot => exact (takeFontDrop_work slot s).quiet
  | fontLock slot => exact (takeFontLock_work slot s).quiet
  | fontCheck slot => exact (takeFontCheck_work slot s).quiet
  | protectRaise b => exact (takeProtectRaise_work b s).quiet
  | storeWipe => exact (takeStoreWipe_work s).quiet
  | compose f => exact takeCompose_quiet f s
  | composeAbort t => exact takeComposeAbort_quiet t s
  | frameRelease slot gen => exact takeFrameRelease_quiet slot gen s
  | noteAdd n => exact takeNoteAdd_quiet n s
  | noteChange id c => exact takeNoteChange_quiet id c s
  | noteRemove id => exact takeNoteRemove_quiet id s
  | commit m c r => exact takeCommit_quiet m c r s
  | refresh m c r => exact takeRefresh_quiet m c r s

/-! ### ACTIVATE, STANDBY (R169, R170) -/

theorem fillPlanes_places (s : State) : WithinPlaces s (fillPlanes s) :=
  { WithinPlaces.refl s with
    jobs := fun h => by
      rw [fillPlanes, releaseAll_jobs]
      exact h }

/-- The state with the pending values of the STANDBY class applied, where an activation begins (R166, R169). -/
def standbyApplied (s : State) : State := { s with settings := applyClass .standby s.settings }

/-- What an activation does: the planes are filled when the geometry is not the one last active, and then the settings and
the lanes change (R169). -/
theorem activateStandby_cases (s : State) :
    ∃ u lanes,
      (s.settings.lastActive ≠ some (geometry (standbyApplied s)) ∧ u = fillPlanes (standbyApplied s)
        ∨ s.settings.lastActive = some (geometry (standbyApplied s)) ∧ u = standbyApplied s)
      ∧ (activateStandby s).1
        = { u with
            lanes := lanes
            settings := { u.settings with lastActive := some (geometry (standbyApplied s)), power := .active } } := by
  unfold activateStandby
  simp only
  split
  · next h => exact ⟨_, _, .inl ⟨of_decide_eq_true h, rfl⟩, rfl⟩
  · next h => exact ⟨_, _, .inr ⟨not_not.mp (fun hn => h (decide_eq_true hn)), rfl⟩, rfl⟩

/-- An activation changes the settings and the lanes beside what the plane fill does (R169). -/
theorem activateStandby_places (s : State) : WithinPlaces s (activateStandby s).1 := by
  have applied : WithinPlaces s (standbyApplied s) := { WithinPlaces.refl s with }
  obtain ⟨u, lanes, ⟨-, rfl⟩ | ⟨-, rfl⟩, he⟩ := activateStandby_cases s
  · rw [he]
    exact { applied.trans (fillPlanes_places _) with }
  · rw [he]
    exact { applied with }

theorem takeActivate_places (s : State) : WithinPlaces s (takeActivate s).1 := by
  unfold takeActivate
  split
  · exact .refl s
  · exact activateStandby_places s

theorem takeStandby_places (s : State) : WithinPlaces s (takeStandby s).1 := by
  unfold takeStandby
  iterate 2 (split; · exact .refl s)
  exact { WithinPlaces.refl s with }

theorem ownerState_places (r : Request) (s : State) : WithinPlaces s (ownerState r s) := by
  cases h : changesPower r with
  | false => exact (ownerState_quiet h s).places
  | true =>
    cases r with
    | activate => exact takeActivate_places s
    | standby => exact takeStandby_places s
    | _ => cases h

end Sys2Proof.Machine
end

section
/-! SUPPORT. The events of the raster path, the scheduler and the lanes are quiet. -/

namespace Sys2Proof.Machine

/-! ### The latch (R117, R118) -/

/-- An update is queued or not, as a policy has it (R120). -/
theorem quiet_sched_or {s : State} {c : Scheduler} (h : c = s.sched ∨ ∃ u, c = (queueUpdate u s.sched).1) :
    Quiet s { s with sched := c } := by
  rcases h with rfl | ⟨u, rfl⟩
  · exact .refl s
  · exact queueUpdate_quiet u s

theorem endLatch_quiet (c : CommitSpec) (copied : List Nat) (deferred : Nat) (s : State) :
    Quiet s (endLatch c copied deferred s) := by
  unfold endLatch
  simp only
  refine Quiet.trans ?_ ((post_quiet _ _).trans (quiet_comp_eq rfl))
  refine quiet_sched_or ?_
  split
  · split
    · exact .inr ⟨_, rfl⟩
    · exact .inl rfl
  · exact .inl rfl

theorem continueLatch_quiet (c : CommitSpec) (next : Nat) (copied : List Nat) (deferred : Nat) (s : State) :
    Quiet s (continueLatch c next copied deferred s) := by
  unfold continueLatch
  split
  · exact quiet_comp_eq rfl
  · exact endLatch_quiet _ _ _ s

theorem changeTile_quiet (i : Nat) (f : TileRec → TileRec) (s : State) : Quiet s (changeTile i f s) :=
  quiet_tiles List.length_set

theorem latchTile_quiet (s : State) : Quiet s (latchTile s) := by
  unfold latchTile
  split
  · split
    · exact endLatch_quiet _ _ _ s
    · split
      · exact (changeTile_quiet _ _ s).trans (continueLatch_quiet _ _ _ _ _)
      · exact ((changeTile_quiet _ _ s).trans (quiet_planes _ _)).trans (continueLatch_quiet _ _ _ _ _)
  · exact .refl s

/-! ### The arbiter (R47, R49, R97) -/

theorem startLatch_quiet (c : CommitSpec) (s : State) : Quiet s (startLatch c s) :=
  (quiet_comp_eq (c := { s.comp with path := .latch }) rfl).trans (continueLatch_quiet _ _ _ _ _)

theorem startRetint_quiet (e : RetintEntry) (s : State) : Quiet s (startRetint e s) :=
  (applyBoundary_quiet (c := .jobBoundary) (by decide) s).trans (quiet_comp_eq rfl)

theorem startJob_quiet {j : JobSpec} {rest : List JobSpec} {s : State} (h : s.comp.jobs = j :: rest) :
    Quiet s (startJob j rest s) := by
  refine (applyBoundary_quiet (c := .jobBoundary) (by decide) s).trans (quiet_comp ?_)
  rw [h]
  exact Nat.le_succ _

theorem rasterPathGrant_quiet (s : State) : Quiet s (rasterPathGrant s) := by
  unfold rasterPathGrant
  split
  · split
    · exact startRetint_quiet _ s
    · split
      · exact startLatch_quiet _ s
      · split
        · exact quiet_comp_eq rfl
        · split
          · next h => exact startJob_quiet h
          · exact .refl s
  · exact .refl s

/-! ### The passes of a compose job (R48, R51 to R53) -/

theorem atBoundary_quiet {go : State → State} (h : ∀ s, Quiet s (go s)) (s : State) : Quiet s (atBoundary go s) := by
  unfold atBoundary
  split
  · exact .refl s
  · split
    · exact endAborted_quiet _ _ s
    · split
      · exact quiet_comp_eq rfl
      · exact h s

theorem enqueueRetint_jobs_ite (p : Prop) [Decidable p] (i g : Nat) (c : Composition) :
    (if p then enqueueRetint i g c else c).jobs = c.jobs := by
  split <;> rfl

theorem closeJob_quiet (s : State) : Quiet s (closeJob s) := by
  unfold closeJob
  split
  · exact .refl s
  · refine (quiet_comp_eq ?_).trans (post_quiet _ _)
    rw [dropStarted, enqueueRetint_jobs_ite]
    rfl

theorem beginOverlay_quiet (s : State) : Quiet s (beginOverlay s) := by
  unfold beginOverlay
  split
  · exact .refl s
  · next j _ =>
    simp only
    have snap : Quiet s
        { s with
          comp := withFrame j.slot
            { frameAt s.comp j.slot with snapshot := some (snapshotOf s (frameAt s.comp j.slot).flow) } s.comp } :=
      quiet_comp_eq rfl
    split
    · exact snap.trans (atBoundary_quiet closeJob_quiet _)
    · exact snap

theorem replayEnd_quiet (s : State) : Quiet s (replayEnd s) := by
  unfold replayEnd
  split
  · exact .refl s
  · next j _ =>
    split
    · simp only
      split
      · exact endFailed_quiet _ _ _ _ s
      · next st _ =>
        have kept : Quiet s
            { s with comp := withFrame j.slot { frameAt s.comp j.slot with stack := st } s.comp } := quiet_comp_eq rfl
        split
        · exact (kept.trans (withJob_quiet _ _)).trans (atBoundary_quiet beginOverlay_quiet _)
        · exact (kept.trans (withJob_quiet _ _)).trans (atBoundary_quiet Quiet.refl _)
    · exact .refl s

theorem finishLine_quiet (j : Job) (w : WorkingLine) (s : State) : Quiet s (finishLine j w s) := by
  unfold finishLine
  simp only
  have recorded : Quiet s
      { s with
        comp := withFrame j.slot
          { frameAt s.comp j.slot with lines := (frameAt s.comp j.slot).lines ++ [w.record] } s.comp } := quiet_comp_eq rfl
  split
  · exact (recorded.trans (withJob_quiet _ _)).trans (atBoundary_quiet beginOverlay_quiet _)
  · exact (recorded.trans (withJob_quiet _ _)).trans (atBoundary_quiet Quiet.refl _)

theorem lineSet_quiet (s : State) : Quiet s (lineSet s) := by
  unfold lineSet
  split
  · exact .refl s
  · split
    · simp only
      split
      · exact (withJob_quiet _ s).trans (beginOverlay_quiet _)
      · split
        · exact endFailed_quiet _ _ _ _ s
        · split
          · exact finishLine_quiet _ _ s
          · exact withJob_quiet _ s
    · exact .refl s

theorem jobSpanDrawn_quiet (j : Job) (s : State) : Quiet s (jobSpanDrawn j s) := by
  unfold jobSpanDrawn
  split
  · split
    · exact finishLine_quiet _ _ s
    · simp only [afterSpan]
      have drawn := fun j1 l => (drawEntries_drawn j.spec.rect l s).quiet.trans (withJob_quiet j1 _)
      split
      · exact (drawn _ _).trans (atBoundary_quiet (finishLine_quiet _ _) _)
      · exact (drawn _ _).trans (atBoundary_quiet Quiet.refl _)
  · exact .refl s

theorem ensureSnapshot_quiet (j : Job) (s : State) : Quiet s (ensureSnapshot j s) := by
  unfold ensureSnapshot
  simp only
  split
  · exact .refl s
  · exact quiet_comp_eq rfl

theorem overlayJobLine_quiet (j : Job) (line : LineRec) (i : Nat) (s : State) : Quiet s (overlayJobLine j line i s) :=
  (finishOverlayLine_drawn _ line _ s).quiet.trans (withJob_quiet _ _)

theorem overlayLineDone_quiet (s : State) : Quiet s (overlayLineDone s) := by
  unfold overlayLineDone
  split
  · exact .refl s
  · split
    · simp only
      have snap := fun j => ensureSnapshot_quiet j s
      split
      · exact (snap _).trans (atBoundary_quiet closeJob_quiet _)
      · refine ((snap _).trans (overlayJobLine_quiet _ _ _ _)).trans (atBoundary_quiet (fun u => ?_) _)
        split
        · exact atBoundary_quiet closeJob_quiet u
        · exact .refl u
    · exact .refl s

/-! ### Retint jobs and the drawing commands (R98, R100, R104) -/

theorem withStage_quiet (run : RetintRun) (stage : RetintStage) (s : State) : Quiet s (withStage run stage s) :=
  quiet_comp_eq rfl

theorem retintOp_quiet {op : RetintRun → LineRec → State → State} (h : ∀ r l s, Quiet s (op r l s)) (s : State) :
    Quiet s (retintOp op s) := by
  unfold retintOp
  split
  · exact .refl s
  · split
    · exact h _ _ s
    · exact .refl s

theorem retintBandFilled_quiet (run : RetintRun) (line : LineRec) (s : State) : Quiet s (retintBandFilled run line s) := by
  unfold retintBandFilled
  split
  · exact (drawRect_drawn _ _ _ s).quiet.trans (withStage_quiet _ _ _)
  · exact .refl s

theorem retintSpanDrawn_quiet (run : RetintRun) (line : LineRec) (s : State) : Quiet s (retintSpanDrawn run line s) := by
  unfold retintSpanDrawn
  split
  · exact (drawEntries_drawn _ _ s).quiet.trans (withStage_quiet _ _ _)
  · exact .refl s

theorem pagePaperFill_quiet (s : State) : Quiet s (pagePaperFill s) := by
  unfold pagePaperFill
  split
  · exact retintOp_quiet retintBandFilled_quiet s
  · split
    · exact (drawRect_drawn _ _ _ s).quiet.trans (withJob_quiet _ _)
    · exact .refl s

theorem glyphSpanDrawn_quiet (s : State) : Quiet s (glyphSpanDrawn s) := by
  unfold glyphSpanDrawn
  split
  · exact retintOp_quiet retintSpanDrawn_quiet s
  · exact jobSpanDrawn_quiet _ s

theorem endRetint_quiet (e : RetintEntry) (run : RetintRun) (s : State) : Quiet s (endRetint e run s) := by
  unfold endRetint
  simp only
  refine (quiet_comp_eq ?_).trans (post_quiet _ _)
  split <;> rfl

/-- A retint job after its current line, over what drawing the line counted (R98). -/
def movedOn (run : RetintRun) (o : Overlaid) : RetintRun :=
  { run with
    current := run.current + 1, stage := .paper, redrawn := run.redrawn + 1, suppressed := run.suppressed + o.suppressed }

/-- RETINT_LINE_REDRAWN draws what is left of the current line, and the job ends or moves on (R98, R100). -/
theorem retintLineRedrawn_some {s : State} {e : RetintEntry} {run : RetintRun} (h : runningRetint s = some (e, run)) :
    ∃ o : Overlaid, Drawn s o.state
      ∧ retintLineRedrawn s
        = if run.released || decide (run.current ≥ run.hi) then
            endRetint { e with run := some (movedOn run o) } (movedOn run o) o.state
          else { o.state with comp := withRun (movedOn run o) o.state.comp } := by
  unfold retintLineRedrawn
  simp only [h]
  cases run.frame.lines[run.current]? with
  | some line => exact ⟨_, redrawLine_drawn run line s, rfl⟩
  | none => exact ⟨⟨s, 0, 0⟩, Drawn.refl s, rfl⟩

theorem retintLineRedrawn_none {s : State} (h : runningRetint s = none) : retintLineRedrawn s = s := by
  rw [retintLineRedrawn, h]

theorem retintLineRedrawn_quiet (s : State) : Quiet s (retintLineRedrawn s) := by
  cases h : runningRetint s with
  | none =>
    rw [retintLineRedrawn_none h]
    exact .refl s
  | some x =>
    obtain ⟨o, ho, he⟩ := retintLineRedrawn_some h
    rw [he]
    split
    · exact ho.quiet.trans (endRetint_quiet _ _ _)
    · exact ho.quiet.trans (quiet_comp_eq rfl)

theorem tick_quiet (s : State) : Quiet s (tick s) :=
  ⟨{ WithinPlaces.refl s with }, .of_settings rfl rfl⟩

/-- An idle step is quiet. -/
theorem idle_quiet (s : State) : Quiet s (idle s) := by
  obtain ⟨d, hd, ht, -, -, hjobs, -⟩ := idle_work s
  have hc : d.comp = (tick s).comp := by
    rw [hd.eq]
  rw [ht]
  exact ((tick_quiet s).trans hd.quiet).trans (quiet_comp_eq (hjobs.trans (by rw [hc])))

/-! ### Scans, lanes and timers (R125 to R146) -/

theorem dispatch_quiet (lane i : Nat) (s : State) : Quiet s (dispatch lane i s) := by
  have taken : Quiet s
      { s with
        sched :=
          { s.sched with
            queue := s.sched.queue.eraseIdx i
            tiles := flyTiles (tileCols s) lane (s.sched.queue.getD i UpdateRec.blank).rect s.sched.tiles } } :=
    quiet_sched (mapFrom_length _ _ _) (List.eraseIdx_sublist s.sched.queue i).length_le.trans id
  exact taken.trans (quiet_lanes _ _)

theorem visitLane_quiet (s : State) (lane : Nat) : Quiet s (visitLane s lane) := by
  unfold visitLane
  split
  · split
    · exact dispatch_quiet _ _ s
    · exact .refl s
  · exact .refl s

theorem dispatchScan_quiet (s : State) : Quiet s (dispatchScan s) := by
  unfold dispatchScan
  split
  · have begun : Quiet s
        { s with
          settings := applyBoundary .dispatchBoundary s.settings
          lanes := { s.lanes with scanDue := false } } :=
      (applyBoundary_quiet (c := .dispatchBoundary) (by decide) s).trans (quiet_lanes _ _)
    exact List.foldlRecOn (motive := Quiet s) _ _ begun fun u hu lane _ => hu.trans (visitLane_quiet u lane)
  · exact .refl s

theorem panelFrameBoundary_quiet (s : State) : Quiet s (panelFrameBoundary s) := by
  unfold panelFrameBoundary
  split
  · exact quiet_lanes s _
  · exact .refl s

theorem withLane_quiet (lane : Nat) (v : Lane) (s : State) : Quiet s (withLane lane v s) := quiet_lanes s _

theorem laneFrame_quiet (lane : Nat) (s : State) : Quiet s (laneFrame lane s) := by
  unfold laneFrame
  split
  · exact .refl s
  · split
    · exact withLane_quiet _ _ s
    · exact .refl s

theorem landLane_quiet (lane : Nat) (d : Drive) (s : State) : Quiet s (landLane lane d s) :=
  ⟨{ WithinPlaces.refl s with }, .of_settings (mapFrom_length _ _ _) rfl⟩

theorem followUp_cases (s : State) (before : List TileRec) (stale : List Nat) :
    (followUp s before stale).1 = s.sched ∨ ∃ u, (followUp s before stale).1 = (queueUpdate u s.sched).1 := by
  unfold followUp
  split
  · exact .inl rfl
  · split
    · exact .inr ⟨_, rfl⟩
    · exact .inl rfl

theorem refineStep_cases (s : State) (d : Drive) :
    (refineStep s d).1 = s.sched ∨ ∃ u, (refineStep s d).1 = (queueUpdate u s.sched).1 := by
  unfold refineStep
  split
  · split
    · exact .inl rfl
    · exact .inr ⟨_, rfl⟩
  · exact .inl rfl

theorem completeLane_quiet (lane : Nat) (d : Drive) (s : State) : Quiet s (completeLane lane d s) := by
  unfold completeLane
  simp only
  have followed := (landLane_quiet lane d s).trans
    (quiet_sched_or (followUp_cases (landLane lane d s) s.sched.tiles (staleTiles lane s.sched.tiles)))
  exact ((followed.trans (quiet_sched_or (refineStep_cases _ d))).trans (withLane_quiet _ _ _)).trans (post_quiet _ _)

theorem updateCompletion_quiet (lane : Nat) (s : State) : Quiet s (updateCompletion lane s) := by
  unfold updateCompletion
  split
  · exact .refl s
  · split
    · exact completeLane_quiet _ _ s
    · exact .refl s

/-- A restart of the deghost timer changes nothing that is bounded (R131). -/
theorem quiet_deghostMs {s : State} {c : Scheduler} (h : Quiet s { s with sched := c }) (n : Nat) :
    Quiet s { s with sched := { c with deghostMs := n } } :=
  h.trans (quiet_sched (s := { s with sched := c }) rfl id id)

theorem deghostExpiry_quiet (s : State) : Quiet s (deghostExpiry s) := by
  unfold deghostExpiry
  split
  · simp only
    refine quiet_deghostMs (quiet_sched_or ?_) 0
    split
    · split
      · exact .inr ⟨_, rfl⟩
      · exact .inl rfl
    · exact .inl rfl
  · exact .refl s

theorem temperatureStale_quiet (s : State) : Quiet s (temperatureStale s) := by
  unfold temperatureStale
  split
  · exact (quiet_lanes s _).trans (post_quiet _ _)
  · exact .refl s

end Sys2Proof.Machine
end

section
/-! SUPPORT. The link's work keeps its own bounds; a reset establishes every condition; and the kinds of events. -/

namespace Sys2Proof.Machine

/-! ### The reply places and the request queue (R152, R154) -/

/-- A change of the link within its places. -/
theorem Bounded.withLink {s : State} (h : Bounded s) {l : LinkUnit} (hq : l.requests.length ≤ 8)
    (hr : l.reserved = s.store.held.length) (hf : l.reserved + l.filled.length ≤ 8) : Bounded { s with link := l } := by
  obtain ⟨-, -, -, rest⟩ := h
  exact ⟨hq, hr, hf, rest⟩

theorem answer_bounded {s : State} (h : Bounded s) (hf : s.link.reserved + s.link.filled.length < 8) (tag kind : Byte)
    (a : Status × ReplyFields) : Bounded (answer tag kind a s) := by
  refine h.withLink h.1 h.2.1 ?_
  simp only [List.length_append, List.length_singleton]
  omega

/-- Held replies that are decided move from RESERVED to FILLED places, one for one (R27, R152). -/
theorem fillDecided_bounded {s : State} (h : Bounded s) : Bounded (fillDecided s) := by
  obtain ⟨hq, hr, hf, rest⟩ := h
  have hl := splitDecided_length s.store.held
  refine ⟨hq, ?_, ?_, rest⟩
  · simp only [fillDecided]
    omega
  · simp only [fillDecided, List.length_append]
    omega

theorem holdReply_bounded {s : State} (h : Bounded s) (hf : s.link.reserved + s.link.filled.length < 8) (tag kind : Byte)
    (a : Option (Status × ReplyFields)) : Bounded (holdReply tag kind a s) := by
  obtain ⟨hq, hr, -, rest⟩ := h
  refine fillDecided_bounded ⟨hq, ?_, ?_, rest⟩
  · simp only [List.length_append, List.length_singleton, hr]
  · simp only
    omega

theorem RepliedTo.bounded {u t : State} (h : RepliedTo u t) (hu : Bounded u)
    (hf : u.link.reserved + u.link.filled.length < 8) : Bounded t := by
  rcases h with ⟨tag, kind, a, rfl⟩ | ⟨tag, kind, a, rfl⟩
  · exact answer_bounded hu hf _ _ _
  · exact holdReply_bounded hu hf _ _ _

theorem TakenFrom.places {s u : State} (h : TakenFrom s u) : WithinPlaces s u := by
  cases h with
  | refused => exact .refl s
  | owner r => exact ownerState_places r s

/-- A request handed over with a place FREE keeps the bounds (R152). -/
theorem handed_bounded {s u t : State} (hs : Bounded s) (hf : s.link.reserved + s.link.filled.length < 8)
    (hu : TakenFrom s u) (ht : RepliedTo u t) : Bounded t := by
  have hw := hu.places
  exact ht.bounded (hw.bounded hs) (by rwa [hw.reserved, hw.filled])

theorem arrive_bounded (q : RawRequest) {s : State} (h : Bounded s) : Bounded (arrive q s) := by
  unfold arrive
  split
  · next room =>
    refine h.withLink ?_ h.2.1 h.2.2.1
    simp only [Config.requestQueueMax] at room
    simp only [List.length_append, List.length_singleton]
    omega
  · split
    · next free =>
      refine answer_bounded h ?_ _ _ _
      simp only [freePlaces, Config.replyPlaces] at free
      omega
    · exact h

theorem present_bounded (tag : Byte) (r : Request) {s : State} (h : Bounded s) : Bounded (present tag r s) := by
  rcases present_cases tag r s with he | ⟨q, he⟩ | ⟨hf, u, hu, ht⟩
  · rwa [he]
  · rw [he]
    exact arrive_bounded q h
  · exact handed_bounded h hf hu ht

theorem handOver_bounded {s : State} (h : Bounded s) : Bounded (handOver s) := by
  rcases handOver_cases s with he | ⟨q, rest, hq, hf, u, hu, ht⟩
  · rwa [he]
  · have hlen : (q :: rest).length ≤ 8 := hq ▸ h.1
    exact handed_bounded (s := { s with link := { s.link with requests := rest } })
      (h.withLink (Nat.le_of_succ_le hlen) h.2.1 h.2.2.1) hf hu ht

theorem receiveByte_bounded {s : State} (h : Bounded s) (b : Byte) : Bounded (receiveByte s b) := by
  have hunted : ∀ x, Bounded (withHunt x s) := fun x => h.withLink h.1 h.2.1 h.2.2.1
  unfold receiveByte
  split
  · exact h
  · split
    case h_4 => split <;> exact hunted _
    case h_6 =>
      unfold judge
      split
      · exact arrive_bounded _ (hunted _)
      · exact hunted _
    all_goals exact hunted _

/-! ### Reset (R171) -/

theorem resetPart_bounded (c : ResetCause) (s : State) : Bounded (resetPart c s) := by
  exact ⟨Nat.zero_le _, rfl, Nat.zero_le _, Nat.zero_le _, (by decide : 0 < 65536), Nat.zero_le _,
    ⟨Nat.le_refl 1, (by decide : 1 ≤ 65535)⟩, Nat.zero_le _, Nat.zero_le _, Nat.zero_le _, Nat.zero_le _⟩

theorem resetPart_notesWf (c : ResetCause) (s : State) : NotesWf (resetPart c s) := List.nodup_nil

theorem resetPart_portWf (c : ResetCause) (s : State) : PortWf (resetPart c s) :=
  ⟨(by decide : 0 < 8), fun _ => ⟨rfl, (by decide : (none : Option Outgoing) ≠ some .reply)⟩, fun _ _ h => (by cases h)⟩

theorem resetPart_tilesWf (c : ResetCause) (s : State) : TilesWf (resetPart c s) :=
  ⟨fun _ => rfl, fun _ _ h => (by cases h), fun h => (by cases h), Nat.zero_le _⟩

theorem frameAt_reset (i : Nat) : frameAt Composition.reset i = FrameRec.vacant 0 := by
  simp only [frameAt, Composition.reset, List.getD_eq_getElem?_getD, List.getElem?_replicate]
  split <;> rfl

theorem reset_recordsFit : RecordsFit Composition.reset where
  frames := rfl
  lines i := by rw [frameAt_reset]; exact Nat.zero_le _
  order := List.nodup_nil
  live i := by
    rw [frameAt_reset]
    exact ⟨fun h => (by cases h), fun h => (by cases h.2)⟩
  slots := List.nodup_nil
  entries e h := by cases h
  job j h := by cases h
  opened i h := by
    rw [frameAt_reset] at h
    cases h

theorem resetPart_recordsWf (c : ResetCause) (s : State) : RecordsWf (resetPart c s) :=
  (recordsWf_iff _).mpr ⟨reset_recordsFit, fun _ => ⟨rfl, rfl, rfl⟩⟩

/-! ### Bytes given (R147, R153) -/

/-- A reply's place is freed, or the RESET it answers takes effect (R153, R156). -/
theorem finishReply_bounded {r : Reply} {rest : List Reply} {s : State} (h : Bounded s) (hf : s.link.filled = r :: rest) :
    Bounded (finishReply r rest s) := by
  unfold finishReply
  simp only
  split
  · exact resetPart_bounded _ _
  · have hlen := h.2.2.1
    rw [hf, List.length_cons] at hlen
    exact h.withLink h.1 h.2.1 (by simp only; omega)

theorem giveByte_bounded (o : Outgoing) {s : State} (h : Bounded s) : Bounded (giveByte o s) := by
  have noted : ∀ b, Bounded (noteGiven b s) := fun b => h.withLink h.1 h.2.1 h.2.2.1
  unfold giveByte
  split
  · next hf =>
    simp only
    split
    · exact h.withLink h.1 h.2.1 h.2.2.1
    · exact finishReply_bounded (noted _) hf
  · exact noted _

theorem clockBit_bounded (bit : Bool) {s : State} (h : Bounded s) : Bounded (clockBit bit s) := by
  have noted : ∀ b, Bounded (noteBit b s) := fun b => h.withLink h.1 h.2.1 h.2.2.1
  unfold clockBit
  simp only
  split
  · exact h.withLink h.1 h.2.1 h.2.2.1
  · refine giveByte_bounded _ (receiveByte_bounded ?_ _)
    exact (noted _).withLink h.1 h.2.1 h.2.2.1

theorem portEvents_bounded (l : List PortEvent) {s : State} (h : Bounded s) : Bounded (portEvents l s) :=
  portEvents_keeps (P := Bounded) (fun b _ hu => clockBit_bounded b hu) (fun _ hu => hu.withLink hu.1 hu.2.1 hu.2.2.1)
    (fun _ hu => hu.withLink hu.1 hu.2.1 hu.2.2.1) l h

/-! ### The port's exchange -/

/-- A reply frame has bytes (Table 9-1). -/
theorem replyFrame_pos (r : Reply) : 0 < (replyFrame r).length := Nat.succ_pos _

/-- Replies that join the FILLED places leave the exchange under way as it is (R153). -/
theorem PortWf.append {s t : State} (h : PortWf s) (hp : t.link.port = s.link.port) (hs : t.link.sent = s.link.sent)
    {l : List Reply} (hf : t.link.filled = s.link.filled ++ l) : PortWf t := by
  obtain ⟨h1, h2, h3⟩ := h
  unfold PortWf
  rw [hp, hs, hf]
  refine ⟨h1, fun he => h2 (List.append_eq_nil_iff.mp he).1, fun r rest he => ?_⟩
  cases hl : s.link.filled with
  | nil =>
    rw [(h2 hl).1]
    exact replyFrame_pos r
  | cons q more =>
    rw [hl, List.cons_append] at he
    cases he
    exact h3 r more hl

/-- What PortWf reads of the link. -/
theorem PortWf.of_eq {s t : State} (h : PortWf s) (hp : t.link.port = s.link.port) (hs : t.link.sent = s.link.sent)
    (hf : t.link.filled = s.link.filled) : PortWf t :=
  h.append hp hs (hf.trans (List.append_nil _).symm)

theorem RepliedTo.portWf {u t : State} (h : RepliedTo u t) (hu : PortWf u) : PortWf t := by
  rcases h with ⟨tag, kind, a, rfl⟩ | ⟨tag, kind, a, rfl⟩
  · exact hu.append rfl rfl rfl
  · exact hu.append rfl rfl rfl

theorem arrive_portWf (q : RawRequest) {s : State} (h : PortWf s) : PortWf (arrive q s) := by
  unfold arrive
  split
  · exact h.of_eq rfl rfl rfl
  · split
    · exact h.append rfl rfl rfl
    · exact h

theorem present_portWf (tag : Byte) (r : Request) {s : State} (h : PortWf s) : PortWf (present tag r s) := by
  rcases present_cases tag r s with he | ⟨q, he⟩ | ⟨-, u, hu, ht⟩
  · rwa [he]
  · rw [he]
    exact arrive_portWf q h
  · exact ht.portWf (hu.places.portWf h)

theorem handOver_portWf {s : State} (h : PortWf s) : PortWf (handOver s) := by
  rcases handOver_cases s with he | ⟨q, rest, -, -, u, hu, ht⟩
  · rwa [he]
  · exact ht.portWf (hu.places.portWf (h.of_eq rfl rfl rfl))

/-- A received byte starts no exchange and frees no place (R149, R154). -/
theorem receiveByte_filled (s : State) (b : Byte) :
    (receiveByte s b).link.port = s.link.port ∧ (receiveByte s b).link.sent = s.link.sent
      ∧ ∃ l, (receiveByte s b).link.filled = s.link.filled ++ l := by
  have same : ∀ x : State, x.link.port = s.link.port → x.link.sent = s.link.sent → x.link.filled = s.link.filled →
      x.link.port = s.link.port ∧ x.link.sent = s.link.sent ∧ ∃ l, x.link.filled = s.link.filled ++ l :=
    fun x hp hs hf => ⟨hp, hs, [], by rw [hf, List.append_nil]⟩
  unfold receiveByte
  split
  · exact same _ rfl rfl rfl
  · split
    case h_4 => split <;> exact same _ rfl rfl rfl
    case h_6 =>
      unfold judge arrive
      repeat' split
      case isTrue.isFalse.isTrue => exact ⟨rfl, rfl, _, rfl⟩
      all_goals exact same _ rfl rfl rfl
    all_goals exact same _ rfl rfl rfl

/-- The outbound byte of an exchange is a reply's only while a place is FILLED (R153). -/
theorem outgoing_filled {s : State} (h : PortWf s) (hf : s.link.filled = []) : outgoing s.link = .fill := by
  have hne := (h.2.1 hf).2
  unfold outgoing
  split
  · next o ho =>
    cases o with
    | fill => rfl
    | reply => exact absurd ho hne
  · rw [hf]
    rfl

theorem finishReply_portWf (r : Reply) (rest : List Reply) {s : State} (hp : s.link.port = Port.idle) :
    PortWf (finishReply r rest s) := by
  unfold finishReply
  simp only
  split
  · exact resetPart_portWf _ _
  · have bits : s.link.port.bits.length < 8 := by rw [hp]; decide
    have out : s.link.port.out ≠ some .reply := by rw [hp]; decide
    exact ⟨bits, fun _ => ⟨rfl, out⟩, fun q _ _ => replyFrame_pos q⟩

theorem giveByte_portWf (o : Outgoing) {s : State} (h : PortWf s) (hp : s.link.port = Port.idle) :
    PortWf (giveByte o s) := by
  unfold giveByte
  split
  · next r rest hf =>
    simp only
    split
    · next hlt =>
      refine ⟨h.1, fun he => ?_, fun q more he => ?_⟩
      · have he' : s.link.filled = [] := he
        rw [hf] at he'
        cases he'
      · have he' : s.link.filled = q :: more := he
        rw [hf] at he'
        cases he'
        exact hlt
    · exact finishReply_portWf r rest hp
  · exact h.of_eq rfl rfl rfl

/-- A completed exchange ends the unfinished one, so that giving its byte begins between exchanges (R147). -/
theorem exchange_portWf (o : Outgoing) (b : Byte) {s : State} (h : PortWf s) : PortWf (exchange o b s) := by
  have idle : PortWf { s with link := { s.link with port := Port.idle } } :=
    ⟨by exact (by decide : (0 : Nat) < 8),
      fun he => ⟨(h.2.1 he).1, by exact (by decide : (none : Option Outgoing) ≠ some .reply)⟩, h.2.2⟩
  obtain ⟨hp, hs, l, hf⟩ := receiveByte_filled { s with link := { s.link with port := Port.idle } } b
  exact giveByte_portWf o (idle.append hp hs hf) hp

theorem clockBit_portWf (bit : Bool) {s : State} (h : PortWf s) : PortWf (clockBit bit s) := by
  have noted : ∀ v, PortWf (noteBit v s) := fun _ => h.of_eq rfl rfl rfl
  unfold clockBit
  simp only
  split
  · next hlt =>
    refine ⟨hlt, fun he => ⟨(h.2.1 he).1, ?_⟩, h.2.2⟩
    show some (outgoing s.link) ≠ some .reply
    rw [outgoing_filled h he]
    decide
  · exact exchange_portWf _ _ (noted _)

theorem portEvents_portWf (l : List PortEvent) {s : State} (h : PortWf s) : PortWf (portEvents l s) :=
  portEvents_keeps (P := PortWf) (fun b _ hu => clockBit_portWf b hu)
    (fun _ hu => ⟨by exact (by decide : (0 : Nat) < 8), hu.2⟩) (fun _ hu => hu.of_eq rfl rfl rfl) l h

/-! ### Kinds of events -/

/-- A store operation may end: its work on the store, a posting, and then its reply (R27). -/
def OperationEnds (s t : State) : Prop := t = s ∨ ∃ a u, Quiet s u ∧ u.comp = s.comp ∧ t = endOperation a u

theorem operationEnds_of_store {s : State} {st : FontStore} (hh : st.held = s.store.held)
    (hw : st.writeQueue = s.store.writeQueue) (a : Status × ReplyFields) :
    OperationEnds s (endOperation a { s with store := st }) :=
  .inr ⟨a, _, quiet_store (congrArg List.length hh) (by rw [hw]; exact id), rfl, rfl⟩

theorem fontEndComplete_ends (s : State) : OperationEnds s (fontEndComplete s) := by
  unfold fontEndComplete
  split
  · apply operationEnds_of_store <;> rfl
  · exact .inl rfl

theorem fontDropComplete_ends (s : State) : OperationEnds s (fontDropComplete s) := by
  unfold fontDropComplete
  split
  · split
    · exact .inl rfl
    · apply operationEnds_of_store <;> rfl
  · exact .inl rfl

theorem fontLockComplete_ends (s : State) : OperationEnds s (fontLockComplete s) := by
  unfold fontLockComplete
  split
  · apply operationEnds_of_store <;> rfl
  · exact .inl rfl

theorem fontCheckComplete_ends (s : State) : OperationEnds s (fontCheckComplete s) := by
  unfold fontCheckComplete
  split
  · simp only
    split
    · exact .inr ⟨_, _, (quiet_store (st := withSlot s.store _ _) rfl id).trans (post_quiet _ _), rfl, rfl⟩
    · apply operationEnds_of_store <;> rfl
  · exact .inl rfl

theorem protectRaiseComplete_ends (s : State) : OperationEnds s (protectRaiseComplete s) := by
  unfold protectRaiseComplete
  split
  · apply operationEnds_of_store <;> rfl
  · exact .inl rfl

theorem storeWipeComplete_ends (s : State) : OperationEnds s (storeWipeComplete s) := by
  unfold storeWipeComplete
  split
  · apply operationEnds_of_store <;> rfl
  · exact .inl rfl

/-- An operation's end decides one held reply and fills what is decided (R27). -/
theorem endOperation_bounded {s : State} (h : Bounded s) (a : Status × ReplyFields) : Bounded (endOperation a s) := by
  obtain ⟨hq, hr, rest⟩ := h
  exact fillDecided_bounded ⟨hq, hr.trans (decideHeld_length a _).symm, rest⟩

theorem endOperation_portWf {s : State} (h : PortWf s) (a : Status × ReplyFields) : PortWf (endOperation a s) :=
  h.append rfl rfl rfl

/-- The kinds of events: quiet work, the host at the port, a hand-over, the end of a store operation, the end of the start-up
scan, and the reset pin. -/
inductive EventKind (s : State) : State → Prop
  | quiet {t : State} (h : Quiet s t) : EventKind s t
  | port (l : List PortEvent) : EventKind s (portEvents l s)
  | handOver : EventKind s (handOver s)
  | ends {t : State} (h : OperationEnds s t) : EventKind s t
  | scanEnd : EventKind s (startupScanEnd s)
  | resetPin : EventKind s (assertReset s)

theorem replySent_kind (s : State) : EventKind s (replySent s) := by
  unfold replySent
  split
  · exact .quiet (.refl s)
  · exact .port _

theorem eventState_kind (i : Instr) (s : State) : EventKind s (eventState i s) := by
  cases i with
  | frameReceived l => exact .port l
  | abandonedFrame second => exact .port [.byte second]
  | handOver => exact .handOver
  | replySent => exact replySent_kind s
  | fontEndComplete => exact .ends (fontEndComplete_ends s)
  | fontDropComplete => exact .ends (fontDropComplete_ends s)
  | fontLockComplete => exact .ends (fontLockComplete_ends s)
  | fontCheckComplete => exact .ends (fontCheckComplete_ends s)
  | protectRaiseComplete => exact .ends (protectRaiseComplete_ends s)
  | storeWipeComplete => exact .ends (storeWipeComplete_ends s)
  | writeEntryProgrammed => exact .quiet (writeEntryProgrammed_work s).quiet
  | rasterPathGrant => exact .quiet (rasterPathGrant_quiet s)
  | replayEnd => exact .quiet (replayEnd_quiet s)
  | pagePaperFill => exact .quiet (pagePaperFill_quiet s)
  | lineSet => exact .quiet (lineSet_quiet s)
  | glyphSpanDrawn => exact .quiet (glyphSpanDrawn_quiet s)
  | overlayLineDone => exact .quiet (overlayLineDone_quiet s)
  | retintLineRedrawn => exact .quiet (retintLineRedrawn_quiet s)
  | latchTile => exact .quiet (latchTile_quiet s)
  | panelFrameBoundary => exact .quiet (panelFrameBoundary_quiet s)
  | laneFrame lane => exact .quiet (laneFrame_quiet lane s)
  | dispatchScan => exact .quiet (dispatchScan_quiet s)
  | updateCompletion lane => exact .quiet (updateCompletion_quiet lane s)
  | deghostExpiry => exact .quiet (deghostExpiry_quiet s)
  | temperatureStale => exact .quiet (temperatureStale_quiet s)
  | resetPin => exact .resetPin
  | resetPinRelease => exact .quiet (quiet_pins s _)
  | startupScanEnd => exact .scanEnd
  | driveHoldLevelChange level => exact .quiet (quiet_pins s _)
  | _ => exact .quiet (.refl s)

/-- The start-up scan rebuilds the font table and posts one notice (R40, R172). -/
theorem startupScanEnd_places (s : State) : WithinPlaces s (startupScanEnd s) := by
  unfold startupScanEnd
  split
  · have scanned : WithinPlaces s { s with store := scanStore s.store } := { WithinPlaces.refl s with }
    exact { scanned.trans (post_quiet (startedNotice s.store.nv { s with store := scanStore s.store }) _).places with }
  · exact .refl s

end Sys2Proof.Machine
end

section
/-! SUPPORT. Every step keeps the bounded tables, the note ids, the unfinished exchange and the tile table. -/

namespace Sys2Proof.Machine

/-! ### Bounds, note ids and the exchange -/

theorem EventKind.bounded {s t : State} (h : EventKind s t) (hs : Bounded s) : Bounded t := by
  cases h with
  | quiet h => exact h.places.bounded hs
  | port l => exact portEvents_bounded l hs
  | handOver => exact handOver_bounded hs
  | ends h =>
    rcases h with rfl | ⟨a, u, hu, -, rfl⟩
    · exact hs
    · exact endOperation_bounded (hu.places.bounded hs) a
  | scanEnd => exact (startupScanEnd_places s).bounded hs
  | resetPin => exact resetPart_bounded .pin s

theorem Stepped.bounded {s t : State} (h : Stepped s t) (hs : Bounded s) : Bounded t := by
  cases h with
  | idles => exact (idle_quiet s).places.bounded hs
  | presents tag r => exact present_bounded tag r hs
  | takes i => exact (eventState_kind i s).bounded hs

theorem EventKind.portWf {s t : State} (h : EventKind s t) (hs : PortWf s) : PortWf t := by
  cases h with
  | quiet h => exact h.places.portWf hs
  | port l => exact portEvents_portWf l hs
  | handOver => exact handOver_portWf hs
  | ends h =>
    rcases h with rfl | ⟨a, u, hu, -, rfl⟩
    · exact hs
    · exact endOperation_portWf (hu.places.portWf hs) a
  | scanEnd => exact (startupScanEnd_places s).portWf hs
  | resetPin => exact resetPart_portWf .pin s

theorem Stepped.portWf {s t : State} (h : Stepped s t) (hs : PortWf s) : PortWf t := by
  cases h with
  | idles => exact (idle_quiet s).places.portWf hs
  | presents tag r => exact present_portWf tag r hs
  | takes i => exact (eventState_kind i s).portWf hs

/-- A condition of the blocks beside the link that every owner's work keeps, holds after a request is presented. -/
theorem present_keeps_blocks {P : State → Prop} (link : ∀ {s t}, LinkOnly s t → P s → P t) {s : State}
    (owner : ∀ r, P (ownerState r s)) (tag : Byte) (r : Request) (h : P s) : P (present tag r s) := by
  rcases present_cases tag r s with he | ⟨q, he⟩ | ⟨-, u, hu, ht⟩
  · rwa [he]
  · rw [he]
    exact link (arrive_linkOnly q s) h
  · cases hu with
    | refused => exact link ht.linkOnly h
    | owner q => exact link ht.linkOnly (owner q)

/-- The same of a hand-over. -/
theorem handOver_keeps_blocks {P : State → Prop} (link : ∀ {s t}, LinkOnly s t → P s → P t) {s : State}
    (owner : ∀ r rest, P (ownerState r { s with link := { s.link with requests := rest } })) (h : P s) : P (handOver s) := by
  rcases handOver_cases s with he | ⟨q, rest, -, -, u, hu, ht⟩
  · rwa [he]
  · cases hu with
    | refused => exact link ht.linkOnly (link (s := s) ⟨rfl, rfl, rfl, rfl⟩ h)
    | owner q => exact link ht.linkOnly (owner q rest)

theorem LinkOnly.notesWf {s t : State} (h : LinkOnly s t) (hs : NotesWf s) : NotesWf t := by
  unfold NotesWf
  rw [h.notes]
  exact hs

theorem OperationEnds.notesWf {s t : State} (h : OperationEnds s t) (hs : NotesWf s) : NotesWf t := by
  rcases h with rfl | ⟨a, u, hu, -, rfl⟩
  · exact hs
  · exact hu.places.notesWf hs

theorem EventKind.notesWf {s t : State} (h : EventKind s t) (hs : NotesWf s) : NotesWf t := by
  cases h with
  | quiet h => exact h.places.notesWf hs
  | port l => exact portEvents_keeps_blocks LinkOnly.notesWf resetPart_notesWf l hs
  | handOver =>
    exact handOver_keeps_blocks LinkOnly.notesWf (fun r rest => (ownerState_places r _).notesWf hs) hs
  | ends h => exact h.notesWf hs
  | scanEnd => exact (startupScanEnd_places s).notesWf hs
  | resetPin => exact resetPart_notesWf .pin s

theorem Stepped.notesWf {s t : State} (h : Stepped s t) (hs : NotesWf s) : NotesWf t := by
  cases h with
  | idles => exact (idle_quiet s).places.notesWf hs
  | presents tag r => exact present_keeps_blocks LinkOnly.notesWf (fun q => (ownerState_places q s).notesWf hs) tag r hs
  | takes i => exact (eventState_kind i s).notesWf hs

/-! ### The tile table (R114, R169) -/

theorem LinkOnly.geometry {s t : State} (h : LinkOnly s t) : GeometryKept s t :=
  .of_settings (by rw [h.sched]) h.settings

theorem LinkOnly.tilesWf {s t : State} (h : LinkOnly s t) (hs : TilesWf s) : TilesWf t := h.geometry.tilesWf hs

/-- A value that the clamp of a panel width or height keeps is within its range (Table 11-1, R164). -/
theorem panel_range {v : Nat} : (clampSetting 0 v = v → v ≤ 2560) ∧ (clampSetting 1 v = v → v ≤ 1920) := by
  simp only [clampSetting, settingRange, Nat.zero_le, Nat.le_refl, if_true]
  omega

/-- A pending value that applies is one that a write stored, so the clamp keeps it (R164, R166). -/
theorem clamp_applyPending {s : State} (h : SettingsInRange s) {id : Nat} (hid : id ≤ 12) :
    clampSetting id (applyPending (setting s.settings id)).applied = (applyPending (setting s.settings id)).applied := by
  obtain ⟨happlied, hpending, -⟩ := h.2 id hid
  unfold applyPending
  cases hp : (setting s.settings id).pending with
  | none => exact happlied
  | some v => exact hpending v hp

/-- The panel after an activation is within the ranges of Table 11-1. -/
theorem activated_panel {s : State} (h : SettingsInRange s) :
    panelWidth (standbyApplied s) ≤ 2560 ∧ panelHeight (standbyApplied s) ≤ 1920 := by
  have hw := clamp_applyPending h (id := 0) (by decide)
  have hh := clamp_applyPending h (id := 1) (by decide)
  constructor
  · rw [panelWidth, applied, standbyApplied, setting_applyClass, if_pos (by decide)]
    exact panel_range.1 hw
  · rw [panelHeight, applied, standbyApplied, setting_applyClass, if_pos (by decide)]
    exact panel_range.2 hh

/-- A tile table of a geometry's size, with that geometry last active (R114, R169). -/
theorem TilesWf.of_size {t : State} {w h : Nat} (hl : t.settings.lastActive = some (w, h)) (hw : panelWidth t = w)
    (hh : panelHeight t = h) (hs : t.sched.tiles.length = w / 64 * (h / 64)) (bw : w ≤ 2560) (bh : h ≤ 1920) : TilesWf t := by
  refine ⟨fun hn => ?_, fun w' h' hv => ?_, fun _ => ?_, ?_⟩
  · rw [hl] at hn
    cases hn
  · rw [hl] at hv
    cases hv
    exact ⟨hs, bw, bh⟩
  · rw [hl, hw, hh]
  · rw [hs]
    exact Nat.mul_le_mul (Nat.div_le_div_right (c := 64) bw) (Nat.div_le_div_right (c := 64) bh)

theorem takeActivate_tilesWf {s : State} (hr : SettingsInRange s) (h : TilesWf s) : TilesWf (takeActivate s).1 := by
  obtain ⟨bw, bh⟩ := activated_panel hr
  unfold takeActivate
  split
  · exact h
  · obtain ⟨u, lanes, ⟨-, rfl⟩ | ⟨same, rfl⟩, he⟩ := activateStandby_cases s <;> simp only [he]
    · exact .of_size rfl rfl rfl (List.length_replicate ..) bw bh
    · exact .of_size rfl rfl rfl (h.2.1 _ _ same).1 bw bh

/-- Outside ACTIVE the geometry need not be the applied one (R170). -/
theorem TilesWf.inactive {s t : State} (h : TilesWf s) (ht : t.sched.tiles = s.sched.tiles)
    (hl : t.settings.lastActive = s.settings.lastActive) (hp : t.settings.power ≠ .active) : TilesWf t := by
  obtain ⟨h1, h2, -, h4⟩ := h
  unfold TilesWf
  rw [ht, hl]
  exact ⟨h1, h2, fun ha => absurd ha hp, h4⟩

theorem takeStandby_tilesWf {s : State} (h : TilesWf s) : TilesWf (takeStandby s).1 := by
  unfold takeStandby
  iterate 2 (split; · exact h)
  exact h.inactive rfl rfl (by simp)

theorem ownerState_tilesWf (r : Request) {s : State} (hr : SettingsInRange s) (h : TilesWf s) :
    TilesWf (ownerState r s) := by
  cases hc : changesPower r with
  | false => exact (ownerState_quiet hc s).geometry.tilesWf h
  | true =>
    cases r with
    | activate => exact takeActivate_tilesWf hr h
    | standby => exact takeStandby_tilesWf h
    | _ => cases hc

theorem startupScanEnd_tilesWf {s : State} (h : TilesWf s) : TilesWf (startupScanEnd s) := by
  unfold startupScanEnd
  split
  · exact h.inactive rfl rfl (by simp)
  · exact h

theorem OperationEnds.tilesWf {s t : State} (h : OperationEnds s t) (hs : TilesWf s) : TilesWf t := by
  rcases h with rfl | ⟨a, u, hu, -, rfl⟩
  · exact hs
  · exact LinkOnly.tilesWf ⟨rfl, rfl, rfl, rfl⟩ (hu.geometry.tilesWf hs)

theorem EventKind.tilesWf {s t : State} (h : EventKind s t) (hr : SettingsInRange s) (hs : TilesWf s) : TilesWf t := by
  cases h with
  | quiet h => exact h.geometry.tilesWf hs
  | port l => exact portEvents_keeps_blocks LinkOnly.tilesWf resetPart_tilesWf l hs
  | handOver => exact handOver_keeps_blocks LinkOnly.tilesWf (fun r rest => ownerState_tilesWf r hr hs) hs
  | ends h => exact h.tilesWf hs
  | scanEnd => exact startupScanEnd_tilesWf hs
  | resetPin => exact resetPart_tilesWf .pin s

theorem Stepped.tilesWf {s t : State} (h : Stepped s t) (hr : SettingsInRange s) (hs : TilesWf s) : TilesWf t := by
  cases h with
  | idles => exact (idle_quiet s).geometry.tilesWf hs
  | presents tag r => exact present_keeps_blocks LinkOnly.tilesWf (fun q => ownerState_tilesWf q hr hs) tag r hs
  | takes i => exact (eventState_kind i s).tilesWf hr hs

end Sys2Proof.Machine
end

section
/-! SUPPORT. The frame records fit the live order, the retint queue and the started job after every owner's work
(R45, R49, R50, R56). -/

namespace Sys2Proof.Machine

/-! ### From the composition to the part -/

/-- The conditions on the frame records read the composition and whether the part is ACTIVE. -/
theorem RecordsWf.of_fit {s t : State} (h : RecordsWf s) (hfit : RecordsFit t.comp)
    (hp : t.settings.power = s.settings.power)
    (hq : s.settings.power ≠ .active → t.comp.started = s.comp.started ∧ t.comp.path = s.comp.path
      ∧ t.comp.commit = s.comp.commit) : RecordsWf t := by
  refine (recordsWf_iff t).mpr ⟨hfit, fun hn => ?_⟩
  rw [hp] at hn
  obtain ⟨h1, h2, h3⟩ := hq hn
  rw [h1, h2, h3]
  exact ((recordsWf_iff s).mp h).2 hn

theorem RecordsWf.of_comp {s t : State} (h : RecordsWf s) (hc : t.comp = s.comp)
    (hp : t.settings.power = s.settings.power) : RecordsWf t :=
  h.of_fit (by rw [hc]; exact ((recordsWf_iff s).mp h).1) hp (fun _ => by rw [hc]; exact ⟨rfl, rfl, rfl⟩)

theorem RecordsWf.of_active {s t : State} (h : RecordsWf s) (hfit : RecordsFit t.comp)
    (hp : t.settings.power = s.settings.power) (ha : s.settings.power = .active) : RecordsWf t :=
  h.of_fit hfit hp (fun hn => absurd ha hn)

theorem RecordsWf.fit {s : State} (h : RecordsWf s) : RecordsFit s.comp := ((recordsWf_iff s).mp h).1

/-- A started job is at work in ACTIVE only (R170). -/
theorem RecordsWf.active_of_started {s : State} (h : RecordsWf s) {j : Job} (hj : s.comp.started = some j) :
    s.settings.power = .active := by
  by_contra hn
  rw [(((recordsWf_iff s).mp h).2 hn).1] at hj
  cases hj

theorem LinkOnly.recordsWf {s t : State} (h : LinkOnly s t) (hs : RecordsWf s) : RecordsWf t :=
  hs.of_comp h.comp (by rw [h.settings])

theorem OperationEnds.recordsWf {s t : State} (h : OperationEnds s t) (hs : RecordsWf s) : RecordsWf t := by
  rcases h with rfl | ⟨a, u, hu, hc, rfl⟩
  · exact hs
  · exact LinkOnly.recordsWf ⟨rfl, rfl, rfl, rfl⟩ (hs.of_comp hc hu.geometry.power)

/-! ### Releases on request (R10, R57, R103) -/

/-- A held record of a flow that no job uses is LIVE (R10). -/
theorem live_of_mem_flowSlots {c : Composition} (h : RecordsFit c) {flow : Nat} (hb : flowBusy c flow = false) {i : Nat}
    (hi : i ∈ flowSlots c flow) : i < 8 ∧ (frameAt c i).state = .live := by
  obtain ⟨hlt, hheld, hflow⟩ := mem_flowSlots.mp hi
  refine ⟨hlt, ?_⟩
  cases hs : (frameAt c i).state with
  | free => exact absurd hs hheld
  | live => rfl
  | opened =>
    obtain ⟨j, hj, rfl⟩ := h.opened i hs
    have busy := (flowBusy_iff c flow).mpr (.inr (.inl ⟨j, hj, (h.job j hj).2.2.2.1.symm.trans hflow⟩))
    rw [hb] at busy
    cases busy

theorem releaseAll_holders (l : List Nat) (c : Composition) :
    (releaseAll l c).started = c.started ∧ (releaseAll l c).path = c.path ∧ (releaseAll l c).commit = c.commit :=
  List.foldlRecOn (motive := fun d : Composition => d.started = c.started ∧ d.path = c.path ∧ d.commit = c.commit) l _
    ⟨rfl, rfl, rfl⟩ fun _ h _ _ => h

theorem takeFlowClear_recordsWf (slot : Nat) {s : State} (h : RecordsWf s) : RecordsWf (takeFlowClear slot s).1 := by
  by_cases hs : slot ≤ 3
  · cases hb : flowBusy s.comp slot with
    | true => simpa [takeFlowClear, Nat.not_lt.mpr hs, hb] using h
    | false =>
      rw [takeFlowClear_unused hs hb]
      exact h.of_fit (h.fit.releaseAll_live (framesWhere_nodup _ _) fun i hi => live_of_mem_flowSlots h.fit hb hi) rfl
        fun _ => releaseAll_holders _ _
  · simpa [takeFlowClear, Nat.lt_of_not_le hs] using h

/-- A record that a request may name is LIVE (R57, R58). -/
theorem frameRefusal_none {slot gen : Nat} {s : State} (h : frameRefusal slot gen s = none) :
    slot < 8 ∧ (frameAt s.comp slot).state = .live := by
  unfold frameRefusal at h
  simp only [Config.frameSlots] at h
  split at h
  · cases h
  · next hlt =>
    split at h
    · cases h
    · next hheld =>
      split at h
      · cases h
      · next hopened =>
        refine ⟨Nat.lt_of_not_le hlt, ?_⟩
        cases hs : (frameAt s.comp slot).state with
        | free => exact absurd (.inl hs) hheld
        | opened => exact absurd hs hopened
        | live => rfl

theorem takeFrameRelease_recordsWf (slot gen : Nat) {s : State} (h : RecordsWf s) :
    RecordsWf (takeFrameRelease slot gen s).1 := by
  unfold takeFrameRelease
  split
  · exact h
  · next hr =>
    obtain ⟨hlt, hl⟩ := frameRefusal_none hr
    exact h.of_fit (h.fit.release_live hlt hl) rfl fun _ => ⟨rfl, rfl, rfl⟩

/-- Outside ACTIVE every held record is LIVE, so the plane fill releases LIVE records alone (R103, R170). -/
theorem fillPlanes_fit {s : State} (h : RecordsFit s.comp) (hn : s.comp.started = none) :
    RecordsFit (fillPlanes s).comp := by
  refine h.releaseAll_live (framesWhere_nodup _ _) fun i hi => ?_
  obtain ⟨hlt, hheld⟩ := (mem_framesWhere _ _ _).mp hi
  refine ⟨hlt, ?_⟩
  cases hs : (frameAt s.comp i).state with
  | free => simp [hs] at hheld
  | live => rfl
  | opened =>
    obtain ⟨j, hj, -⟩ := h.opened i hs
    rw [hn] at hj
    cases hj

theorem takeActivate_recordsWf {s : State} (h : RecordsWf s) : RecordsWf (takeActivate s).1 := by
  unfold takeActivate
  split
  · exact h
  · next hp =>
    have hn : s.comp.started = none := (((recordsWf_iff s).mp h).2 (by simpa using hp)).1
    obtain ⟨u, lanes, ⟨-, rfl⟩ | ⟨-, rfl⟩, he⟩ := activateStandby_cases s <;> simp only [he]
    · exact (recordsWf_iff _).mpr ⟨fillPlanes_fit (s := standbyApplied s) h.fit hn, fun hna => absurd rfl hna⟩
    · exact (recordsWf_iff _).mpr ⟨h.fit, fun hna => absurd rfl hna⟩

/-- With no job started, no retint job and no commit, the raster path is free (R47, R170). -/
theorem PathDiscipline.free {s : State} (h : PathDiscipline s) (hs : s.comp.started = none) (hr : s.comp.retints = [])
    (hc : s.comp.commit = .empty) : s.comp.path = .free := by
  obtain ⟨hjob, hretint, hlatch, -⟩ := h
  cases hp : s.comp.path with
  | free => rfl
  | composeJob =>
    obtain ⟨j, hj, -⟩ := hjob.mp hp
    rw [hs] at hj
    cases hj
  | retintJob =>
    have := hretint.mp hp
    rw [hr] at this
    cases this
  | latch =>
    have := hlatch.mp hp
    rw [hc] at this
    cases this

theorem takeStandby_recordsWf {s : State} (hd : PathDiscipline s) (h : RecordsWf s) : RecordsWf (takeStandby s).1 := by
  unfold takeStandby
  split
  · exact h
  · split
    · exact h
    · next hidle =>
      simp only [standbyRefused, standbyJobs, standbyRetints, standbyCommit, anyComposeJob, Bool.or_eq_true, not_or,
        Bool.not_eq_true, Option.isSome_eq_false_iff, Option.isNone_iff_eq_none, Bool.not_eq_false',
        List.isEmpty_iff, bne_eq_false_iff_eq] at hidle
      obtain ⟨⟨⟨⟨⟨-, hs⟩, hr⟩, hc⟩, -⟩, -⟩ := hidle
      exact (recordsWf_iff _).mpr ⟨h.fit, fun _ => ⟨hs, hd.free hs hr hc, hc⟩⟩

/-! ### COMPOSE, COMPOSE_ABORT, COMMIT (R43, R55, R116) -/

theorem takeCompose_recordsWf (f : ComposeFields) {s : State} (h : RecordsWf s) : RecordsWf (takeCompose f s).1 := by
  unfold takeCompose
  iterate 5 (split; · exact h)
  exact h.of_fit (h.fit.of_eq rfl rfl rfl rfl) rfl fun _ => ⟨rfl, rfl, rfl⟩

theorem takeCommit_recordsWf (mode cls : Nat) (rect : Option TileRect) {s : State} (h : RecordsWf s) :
    RecordsWf (takeCommit mode cls rect s).1 := by
  unfold takeCommit
  split
  · exact h
  · next ha =>
    split
    · iterate 2 (split; · exact h)
      exact h.of_active (h.fit.of_eq rfl rfl rfl rfl) rfl (by simpa using ha)
    · exact h

theorem endAborted_fit {s : State} {j : Job} (h : RecordsFit s.comp) (hj : s.comp.started = some j) (found : JobState) :
    RecordsFit (endAborted j found s).comp := h.dropStarted_release hj j

theorem endFailed_fit {s : State} {j : Job} (h : RecordsFit s.comp) (hj : s.comp.started = some j) (reason : FailReason)
    (p : Pos) (pass : Pass) : RecordsFit (endFailed j reason p pass s).comp := h.dropStarted_release hj j

/-- The room that a started job's record has before the OVERLAY pass (R52). -/
theorem RecordsFit.room {c : Composition} (h : RecordsFit c) {j : Job} (hj : c.started = some j)
    (hb : beforeOverlay j.phase = true) : (frameAt c j.slot).lines.length < 256 := by
  obtain ⟨-, -, -, -, room⟩ := h.job j hj
  exact room hb

theorem takeComposeAbort_recordsWf (tag : Nat) {s : State} (h : RecordsWf s) : RecordsWf (takeComposeAbort tag s).1 := by
  unfold takeComposeAbort
  split
  · exact h.of_fit (h.fit.of_eq rfl rfl rfl rfl) rfl fun _ => ⟨rfl, rfl, rfl⟩
  · split
    · exact h
    · next j hj =>
      have ha := h.active_of_started hj
      split
      · exact h
      · split
        · exact h.of_active (h.fit.withStarted hj (j' := { j with abortAsked := true }) rfl rfl rfl
            (fun hb => h.fit.room hj hb)) rfl ha
        · exact h.of_active (endAborted_fit h.fit hj _) rfl ha

/-! ### Note requests (R93) -/

/-- A LIVE record with neither a WAITING nor a RUNNING retint job has no entry in the queue (R45). -/
theorem RecordsFit.not_mem_of_no_retint {c : Composition} (h : RecordsFit c) {k : Nat} (hl : (frameAt c k).state = .live)
    (hr : retintRuns c k (frameAt c k).gen = false) (hw : retintWaits c k (frameAt c k).gen = false) :
    k ∉ c.retints.map (·.slot) := by
  intro hm
  obtain ⟨e, he, rfl⟩ := List.mem_map.mp hm
  rcases (h.entries e he).2 with ⟨-, hg, -⟩ | ⟨hfree, -⟩
  · simp only [retintRuns, retintWaits, List.any_eq_false, hg] at hr hw
    cases hrun : e.run with
    | none => exact hw e he (by simp [hrun])
    | some r => exact hr e he (by simp [hrun])
  · rw [hl] at hfree
    cases hfree

theorem reachFrame_fit (flow : Nat) (old new : Option (Pos × Pos)) {slot : Nat} (hs : slot < 8) {c : Composition}
    (h : RecordsFit c) : RecordsFit (reachFrame flow old new slot c).1 := by
  rcases reachFrame_cases flow old new slot c with he | ⟨late, retint, he | ⟨hl, hr, hw, he⟩⟩ <;> rw [he]
  · exact h
  · exact h.withFrame_same hs rfl rfl rfl rfl
  · have hf : RecordsFit (withFrame slot { frameAt c slot with late := late, retint := retint } c) :=
      h.withFrame_same hs rfl rfl rfl rfl
    have hat : frameAt (withFrame slot { frameAt c slot with late := late, retint := retint } c) slot
        = { frameAt c slot with late := late, retint := retint } := by
      rw [frameAt_withFrame slot slot _ c (by rw [h.frames]; exact hs), if_pos rfl]
    have := hf.enqueueRetint hs (by rw [hat]; exact hl) (h.not_mem_of_no_retint hl hr hw)
    rwa [hat] at this

theorem reachFrames_fit (flow : Nat) (old new : Option (Pos × Pos)) {c : Composition} (h : RecordsFit c) :
    RecordsFit (reachFrames flow old new c).1 :=
  reachFrames_keeps flow old new (fun _ _ hs hd => reachFrame_fit flow old new hs hd) h

theorem reachFrames_holders (flow : Nat) (old new : Option (Pos × Pos)) (c : Composition) :
    (reachFrames flow old new c).1.started = c.started ∧ (reachFrames flow old new c).1.path = c.path
      ∧ (reachFrames flow old new c).1.commit = c.commit := by
  refine reachFrames_keeps (P := fun d => d.started = c.started ∧ d.path = c.path ∧ d.commit = c.commit) flow old new
    (fun slot d _ h => ?_) ⟨rfl, rfl, rfl⟩
  rcases reachFrame_cases flow old new slot d with he | ⟨_, _, he | ⟨-, -, -, he⟩⟩ <;> rw [he] <;> exact h

/-- Note requests reach records and change the notes (R93). -/
theorem RecordsWf.reached {s : State} (h : RecordsWf s) (flow : Nat) (old new : Option (Pos × Pos)) (l : List Note) :
    RecordsWf { s with notes := l, comp := (reachFrames flow old new s.comp).1 } := by
  have hfit := reachFrames_fit flow old new h.fit
  have hold := reachFrames_holders flow old new s.comp
  generalize (reachFrames flow old new s.comp).1 = c at hfit hold
  exact h.of_fit hfit rfl fun _ => hold

theorem takeNoteAdd_recordsWf (f : NoteFields) {s : State} (h : RecordsWf s) : RecordsWf (takeNoteAdd f s).1 := by
  unfold takeNoteAdd
  split
  · exact h
  · iterate 4 (split; · exact h)
    exact h.reached _ _ _ _

theorem takeNoteChange_recordsWf (id : Nat) (c : NoteChanges) {s : State} (h : RecordsWf s) :
    RecordsWf (takeNoteChange id c s).1 := by
  unfold takeNoteChange
  iterate 2 (split; · exact h)
  split
  · exact h
  · simp only
    split
    · exact h
    · exact h.reached _ _ _ _

theorem takeNoteRemove_recordsWf (id : Nat) {s : State} (h : RecordsWf s) : RecordsWf (takeNoteRemove id s).1 := by
  unfold takeNoteRemove
  iterate 2 (split; · exact h)
  exact h.reached _ _ _ _

/-! ### All owners -/

theorem takeFlowAppend_comp (slot : Nat) (records : List RunRecord) (s : State) :
    (takeFlowAppend slot records s).1.comp = s.comp := by
  unfold takeFlowAppend
  iterate 3 (split; · rfl)
  rfl

theorem takeStyleDefine_comp (id : Nat) (f : StyleFields) (s : State) : (takeStyleDefine id f s).1.comp = s.comp := by
  unfold takeStyleDefine
  iterate 2 (split; · rfl)
  rfl

theorem takeSet_comp (id value : Nat) (s : State) : (takeSet id value s).1.comp = s.comp := by
  unfold takeSet
  iterate 3 (split; · rfl)
  rfl

theorem takeRefresh_comp (mode cls : Nat) (rect : Option TileRect) (s : State) :
    (takeRefresh mode cls rect s).1.comp = s.comp := by
  unfold takeRefresh
  split
  · rfl
  · split
    · split
      · rfl
      · split <;> rfl
    · rfl

/-- Every owner's work keeps the frame records fitting. -/
theorem ownerState_recordsWf (r : Request) {s : State} (hd : PathDiscipline s) (h : RecordsWf s) :
    RecordsWf (ownerState r s) := by
  have quiet : changesPower r = false → (ownerState r s).comp = s.comp → RecordsWf (ownerState r s) :=
    fun hc hcomp => h.of_comp hcomp (ownerState_quiet hc s).geometry.power
  cases r with
  | status | get | flowInfo | styleRead | fontList | glyphGet | frameInfo | locate | noteList | queueInfo => exact h
  | reset | setTemperature | readNotices | clearNotices => exact quiet rfl rfl
  | set id v => exact quiet rfl (takeSet_comp id v s)
  | activate => exact takeActivate_recordsWf h
  | standby => exact takeStandby_recordsWf hd h
  | flowAppend slot l => exact quiet rfl (takeFlowAppend_comp slot l s)
  | flowClear slot => exact takeFlowClear_recordsWf slot h
  | styleDefine id f => exact quiet rfl (takeStyleDefine_comp id f s)
  | fontBegin slot header => exact quiet rfl (takeFontBegin_work slot header s).comp
  | glyphPut slot i l => exact quiet rfl (takeGlyphPut_work slot i l s).comp
  | fontEnd slot => exact quiet rfl (takeFontEnd_work slot s).comp
  | fontDrop slot => exact quiet rfl (takeFontDrop_work slot s).comp
  | fontLock slot => exact quiet rfl (takeFontLock_work slot s).comp
  | fontCheck slot => exact quiet rfl (takeFontCheck_work slot s).comp
  | protectRaise b => exact quiet rfl (takeProtectRaise_work b s).comp
  | storeWipe => exact quiet rfl (takeStoreWipe_work s).comp
  | compose f => exact takeCompose_recordsWf f h
  | composeAbort t => exact takeComposeAbort_recordsWf t h
  | frameRelease slot gen => exact takeFrameRelease_recordsWf slot gen h
  | noteAdd n => exact takeNoteAdd_recordsWf n h
  | noteChange id c => exact takeNoteChange_recordsWf id c h
  | noteRemove id => exact takeNoteRemove_recordsWf id h
  | commit m c r => exact takeCommit_recordsWf m c r h
  | refresh m c r => exact quiet rfl (takeRefresh_comp m c r s)

end Sys2Proof.Machine
end

section
/-! SUPPORT. The frame records fit the live order, the retint queue and the started job after every event of the raster path
(R47 to R53, R95 to R100). -/

namespace Sys2Proof.Machine

/-! ### Drawing and boundaries -/

@[simp] theorem Drawn.comp {s t : State} (h : Drawn s t) : t.comp = s.comp := by
  rw [h.eq]

/-- A boundary aborts, suspends, or lets the job go on (R48). -/
theorem atBoundary_fit {go : State → State} {s : State} (h : RecordsFit s.comp) (hgo : RecordsFit (go s).comp) :
    RecordsFit (atBoundary go s).comp := by
  unfold atBoundary
  split
  · exact h
  · next j hj =>
    split
    · exact endAborted_fit h hj _
    · split
      · exact (h.withStarted hj (j' := { j with running := false }) rfl rfl rfl (fun hb => h.room hj hb)).of_eq rfl rfl rfl rfl
      · exact hgo

/-! ### The CLOSE pass (R53) -/

/-- The started job's record becomes LIVE and joins the live order, and no job is started any more (R53). -/
theorem RecordsFit.close {c : Composition} (h : RecordsFit c) {j : Job} (hj : c.started = some j) :
    RecordsFit (dropStarted j
      (Machine.withFrame j.slot (closedFrame j (frameAt c j.slot)) { c with liveOrder := c.liveOrder ++ [j.slot] })) := by
  obtain ⟨hlt, hopen, -⟩ := h.job j hj
  have hfr : ∀ i, frameAt (dropStarted j
      (Machine.withFrame j.slot (closedFrame j (frameAt c j.slot)) { c with liveOrder := c.liveOrder ++ [j.slot] })) i
        = if i = j.slot then closedFrame j (frameAt c j.slot) else frameAt c i :=
    fun i => frameAt_withFrame j.slot i _ { c with liveOrder := c.liveOrder ++ [j.slot] } (by rw [h.frames]; exact hlt)
  have notLive : j.slot ∉ c.liveOrder := fun hm => by
    have := ((h.live _).mp hm).2
    rw [hopen] at this
    cases this
  refine ⟨?_, fun i => ?_, ?_, fun i => ?_, h.slots, fun e he => ?_, fun i hi => (by cases hi), fun i hi => ?_⟩
  · simpa [dropStarted, Machine.withFrame] using h.frames
  · rw [hfr]
    split
    · exact h.lines _
    · exact h.lines i
  · exact h.order.append (List.nodup_singleton _) (by simpa using notLive)
  · rw [hfr]
    simp only [dropStarted, withFrame_liveOrder, List.mem_append, List.mem_singleton, h.live i]
    by_cases hi : i = j.slot
    · subst hi
      simp [hlt, closedFrame]
    · simp [hi]
  · obtain ⟨hlt, hfit⟩ := h.entries e he
    have hne : e.slot ≠ j.slot := by
      intro heq
      rw [heq] at hfit
      exact hfit.not_opened hopen
    rw [hfr, if_neg hne]
    exact ⟨hlt, hfit⟩
  · rw [hfr] at hi
    split at hi
    · cases hi
    · next hne =>
      obtain ⟨j', hj', rfl⟩ := h.opened i hi
      rw [hj] at hj'
      cases hj'
      exact absurd rfl hne

theorem closeJob_fit {s : State} (h : RecordsFit s.comp) : RecordsFit (closeJob s).comp := by
  unfold closeJob
  split
  · exact h
  · next j hj =>
    obtain ⟨hlt, hopen, hgen, -⟩ := h.job j hj
    have closed := h.close hj
    simp only [post_comp]
    split
    · have hat : frameAt (dropStarted j (withFrame j.slot (closedFrame j (frameAt s.comp j.slot))
          { s.comp with liveOrder := s.comp.liveOrder ++ [j.slot] })) j.slot = closedFrame j (frameAt s.comp j.slot) :=
        (frameAt_withFrame j.slot j.slot _ { s.comp with liveOrder := s.comp.liveOrder ++ [j.slot] }
          (by rw [h.frames]; exact hlt)).trans (if_pos rfl)
      have queued := closed.enqueueRetint hlt (by rw [hat]; rfl) (h.not_mem_of_opened hopen)
      rw [hat] at queued
      exact queued.of_eq rfl rfl (by rw [← hgen]; rfl) rfl
    · exact closed

/-! ### The passes before it (R21, R51, R52, R95) -/

theorem beginOverlay_fit {s : State} (h : RecordsFit s.comp) : RecordsFit (beginOverlay s).comp := by
  unfold beginOverlay
  split
  · exact h
  · next j hj =>
    have snap := h.withFrame_same (h.job j hj).1
      (f := { frameAt s.comp j.slot with snapshot := some (snapshotOf s (frameAt s.comp j.slot).flow) }) rfl rfl rfl rfl
    simp only
    split
    · exact atBoundary_fit snap (closeJob_fit snap)
    · exact snap

theorem runningJob_started {s : State} {j : Job} (h : runningJob s = some j) : s.comp.started = some j := by
  unfold runningJob at h
  obtain ⟨i, hi, hr⟩ := Option.bind_eq_some_iff.mp h
  split at hr
  · cases hr
    exact hi
  · cases hr

theorem replayEnd_fit {s : State} (h : RecordsFit s.comp) : RecordsFit (replayEnd s).comp := by
  unfold replayEnd
  split
  · exact h
  · next j hj =>
    have hs := runningJob_started hj
    split
    · next hp =>
      have room := h.room hs (by rw [hp]; rfl)
      simp only
      split
      · exact endFailed_fit h hs _ _ _
      · next st _ =>
        have moved : ∀ j' : Job, j'.slot = j.slot → j'.gen = j.gen → j'.spec = j.spec →
            RecordsFit { withFrame j.slot { frameAt s.comp j.slot with stack := st } s.comp with started := some j' } :=
          fun j' h1 h2 h3 => h.withFrame_job hs h1 h2 (by rw [h3]) rfl rfl rfl (h.lines _) (fun _ => room)
        split
        · exact atBoundary_fit (moved _ rfl rfl rfl) (beginOverlay_fit (moved _ rfl rfl rfl))
        · exact atBoundary_fit (moved _ rfl rfl rfl) (moved _ rfl rfl rfl)
    · exact h

/-- A line recorded before the OVERLAY pass: the record had room for it, and has room for one more unless the pass stops
(R52). -/
theorem finishLine_fit {s : State} (h : RecordsFit s.comp) {i : Job} (hi : s.comp.started = some i)
    (hb : beforeOverlay i.phase = true) {j : Job} (hslot : j.slot = i.slot) (hgen : j.gen = i.gen) (hspec : j.spec = i.spec)
    (w : WorkingLine) : RecordsFit (finishLine j w s).comp := by
  have room := h.room hi hb
  rw [← hslot] at room
  have hlen : ((frameAt s.comp j.slot).lines ++ [w.record]).length ≤ 256 := by
    rw [List.length_append]
    exact room
  have moved : ∀ j' : Job, j'.slot = i.slot → j'.gen = i.gen → j'.spec = i.spec →
      (beforeOverlay j'.phase = true → ((frameAt s.comp j.slot).lines ++ [w.record]).length < 256) →
      RecordsFit
        { withFrame j.slot
            { frameAt s.comp j.slot with lines := (frameAt s.comp j.slot).lines ++ [w.record] } s.comp with
          started := some j' } := by
    intro j' h1 h2 h3 h4
    rw [hslot] at hlen h4 ⊢
    exact h.withFrame_job hi h1 h2 (by rw [h3]) rfl rfl rfl hlen h4
  unfold finishLine
  simp only
  split
  · next p _ =>
    have := moved { j with
        stack := w.stack, current := w.record.stop, nextTop := w.nextTop, phase := .overlay 0, stop := p }
      hslot hgen hspec (fun hn => by cases hn)
    exact atBoundary_fit this (beginOverlay_fit this)
  · next hgo =>
    have := moved { j with stack := w.stack, current := w.record.stop, nextTop := w.nextTop, phase := .lines }
      hslot hgen hspec fun _ => by
        unfold stopAfter at hgo
        split at hgo
        · cases hgo
        · split at hgo
          · cases hgo
          · next hlt => exact Nat.lt_of_not_le hlt
    exact atBoundary_fit this this

theorem lineSet_fit {s : State} (h : RecordsFit s.comp) : RecordsFit (lineSet s).comp := by
  unfold lineSet
  split
  · exact h
  · next j hj =>
    have hs := runningJob_started hj
    split
    · next hp =>
      have hb : beforeOverlay j.phase = true := by rw [hp]; rfl
      simp only
      split
      · exact beginOverlay_fit (h.withStarted hs rfl rfl rfl (fun hn => by cases hn))
      · split
        · exact endFailed_fit h hs _ _ _
        · split
          · apply finishLine_fit h hs hb <;> rfl
          · exact h.withStarted hs rfl rfl rfl (fun _ => h.room hs hb)
    · exact h

theorem jobSpanDrawn_fit {s : State} (h : RecordsFit s.comp) {j : Job} (hs : s.comp.started = some j) :
    RecordsFit (jobSpanDrawn j s).comp := by
  unfold jobSpanDrawn
  split
  · next w k hp =>
    have hb : beforeOverlay j.phase = true := by rw [hp]; rfl
    split
    · exact finishLine_fit h hs hb rfl rfl rfl w
    · have moved : RecordsFit
          (withJob { j with phase := .drawing w (k + 1) }
            (drawEntries j.spec.rect (spanEntries j.spanLength k w.entries) s)).comp := by
        rw [withJob, (drawEntries_drawn _ _ s).comp]
        exact h.withStarted hs rfl rfl rfl (fun _ => h.room hs hb)
      simp only [afterSpan]
      split
      · exact atBoundary_fit moved (finishLine_fit moved rfl rfl rfl rfl rfl w)
      · exact atBoundary_fit moved moved
  · exact h

/-! ### The OVERLAY pass (R95) -/

/-- The snapshot taken late leaves the started job and the record's fit as they are (R95). -/
theorem ensureSnapshot_fit {s : State} (h : RecordsFit s.comp) {j : Job} (hs : s.comp.started = some j) :
    RecordsFit (ensureSnapshot j s).comp ∧ (ensureSnapshot j s).comp.started = some j := by
  unfold ensureSnapshot
  simp only
  split
  · exact ⟨h, hs⟩
  · exact ⟨h.withFrame_same (h.job j hs).1 rfl rfl rfl rfl, hs⟩

theorem overlayLineDone_fit {s : State} (h : RecordsFit s.comp) : RecordsFit (overlayLineDone s).comp := by
  unfold overlayLineDone
  split
  · exact h
  · next j hj =>
    obtain ⟨snap, hs⟩ := ensureSnapshot_fit h (runningJob_started hj)
    split
    · simp only
      split
      · exact atBoundary_fit snap (closeJob_fit snap)
      · next i _ _ line _ =>
        have moved : RecordsFit (overlayJobLine j line i (ensureSnapshot j s)).comp := by
          simp only [overlayJobLine, withJob, (finishOverlayLine_drawn _ _ _ _).comp]
          exact snap.withStarted hs rfl rfl rfl (fun hn => by cases hn)
        refine atBoundary_fit moved ?_
        split
        · exact atBoundary_fit moved (closeJob_fit moved)
        · exact moved
    · exact h

theorem jobOverlayOp_fit {s : State} (h : RecordsFit s.comp) {j : Job} (hj : s.comp.started = some j) :
    RecordsFit (jobOverlayOp j s).comp := by
  obtain ⟨snap, hs⟩ := ensureSnapshot_fit h hj
  unfold jobOverlayOp
  split
  · simp only
    split
    · exact snap
    · simp only [withJob, (drawNextOp_drawn _ _ _ _).comp]
      exact snap.withStarted hs rfl rfl rfl (fun hb => snap.room hs hb)
  · exact h

/-! ### Retint jobs (R97, R98, R100) -/

/-- With one RUNNING retint job at most, two running entries are one (R45, R47). -/
theorem running_unique {l : List RetintEntry} (h : l.countP (fun e => e.run.isSome) ≤ 1) {a b : RetintEntry} (ha : a ∈ l)
    (hb : b ∈ l) (hra : a.run.isSome = true) (hrb : b.run.isSome = true) : a = b := by
  rw [List.countP_eq_length_filter] at h
  have ma : a ∈ l.filter (fun e => e.run.isSome) := List.mem_filter.mpr ⟨ha, hra⟩
  have mb : b ∈ l.filter (fun e => e.run.isSome) := List.mem_filter.mpr ⟨hb, hrb⟩
  generalize l.filter (fun e => e.run.isSome) = f at h ma mb
  rcases f with _ | ⟨x, _ | ⟨y, f⟩⟩
  · cases ma
  · rw [List.mem_singleton.mp ma, List.mem_singleton.mp mb]
  · simp at h

/-- An entry's fit reads of a run whether its record was released. -/
theorem EntryFits.withRun {f : FrameRec} {e : RetintEntry} (h : EntryFits f e) {r r' : RetintRun} (hr : e.run = some r)
    (hrel : r'.released = r.released) : EntryFits f { e with run := some r' } := by
  rcases h with ⟨h1, h2, h3⟩ | ⟨h1, q, hq, hrq⟩
  · exact .inl ⟨h1, h2, fun q hq => by cases hq; exact hrel.trans (h3 r hr)⟩
  · rw [hr] at hq
    cases hq
    exact .inr ⟨h1, r', rfl, hrel.trans hrq⟩

/-- The RUNNING retint job moves on (R98). -/
theorem RecordsFit.withRun {c : Composition} (h : RecordsFit c) (hone : c.retints.countP (fun e => e.run.isSome) ≤ 1)
    {e : RetintEntry} (he : e ∈ c.retints) {r r' : RetintRun} (hr : e.run = some r) (hrel : r'.released = r.released) :
    RecordsFit (Machine.withRun r' c) := by
  have slots : ((c.retints.map (fun x => if x.run.isSome then { x with run := some r' } else x)).map (·.slot))
      = c.retints.map (·.slot) := by
    rw [List.map_map]
    refine List.map_congr_left fun x _ => ?_
    simp only [Function.comp]
    split <;> rfl
  refine h.withRetints (by rw [slots]) fun x hx => ?_
  obtain ⟨x0, h0, rfl⟩ := List.mem_map.mp hx
  split
  · next hsome =>
    obtain rfl := running_unique hone h0 he hsome (by rw [hr]; rfl)
    obtain ⟨hlt, hfit⟩ := h.entries x0 h0
    exact ⟨hlt, hfit.withRun hr hrel⟩
  · exact h.entries x0 h0

/-- The RUNNING retint job is an entry of the queue, and it holds the raster path (R45, R47). -/
theorem runningRetint_some {s : State} {e : RetintEntry} {run : RetintRun} (h : runningRetint s = some (e, run)) :
    s.comp.path = .retintJob ∧ e ∈ s.comp.retints ∧ e.run = some run := by
  unfold runningRetint at h
  split at h
  · next hp =>
    obtain ⟨e0, hf, hm⟩ := Option.bind_eq_some_iff.mp h
    obtain ⟨r, hr, heq⟩ := Option.map_eq_some_iff.mp hm
    cases heq
    exact ⟨hp, List.mem_of_find?_eq_some hf, hr⟩
  · cases h

/-- The end of a retint job: it leaves the queue, and lines still pending on its record queue another (R100). -/
theorem endRetint_fit {s : State} (h : RecordsFit s.comp) {e e0 : RetintEntry} {run run0 : RetintRun}
    (he : e0 ∈ s.comp.retints) (hr : e0.run = some run0) (hslot : e.slot = e0.slot) (hgen : e.gen = e0.gen)
    (hrel : run.released = run0.released) : RecordsFit (endRetint e run s).comp := by
  have left : RecordsFit { s.comp with retints := s.comp.retints.filter (fun x => x.run.isNone), path := .free } :=
    (h.withRetints (l := s.comp.retints.filter (fun x => x.run.isNone)) (List.filter_sublist.map _)
      fun x hx => h.entries x (List.mem_of_mem_filter hx)).of_eq rfl rfl rfl rfl
  simp only [endRetint, post_comp]
  split
  · exact left
  · next hmore =>
    simp only [Bool.or_eq_true, not_or, Bool.not_eq_true, hrel] at hmore
    obtain ⟨hlt, ⟨hl, hg, -⟩ | ⟨-, q, hq, hrq⟩⟩ := h.entries e0 he
    · have gone : e0.slot ∉ (s.comp.retints.filter (fun x => x.run.isNone)).map (·.slot) := by
        intro hm
        obtain ⟨x, hx, hxs⟩ := List.mem_map.mp hm
        obtain ⟨hxm, hxn⟩ := List.mem_filter.mp hx
        obtain rfl := List.inj_on_of_nodup_map h.slots hxm he hxs
        rw [hr] at hxn
        cases hxn
      have queued := left.enqueueRetint hlt hl gone
      exact queued.of_eq rfl rfl (by rw [hslot, hgen, ← hg]; rfl) rfl
    · rw [hr] at hq
      cases hq
      rw [hrq] at hmore
      cases hmore.1

/-- Work on a retint's line draws and moves the job on (R98, R104). -/
def RetintWork (run : RetintRun) (s t : State) : Prop :=
  t.comp = s.comp ∨ ∃ run' : RetintRun, run'.released = run.released ∧ t.comp = withRun run' s.comp

theorem withStage_work {s u : State} (h : Drawn s u) (run : RetintRun) (stage : RetintStage) :
    RetintWork run s (withStage run stage u) := .inr ⟨{ run with stage := stage }, rfl, by rw [withStage, h.comp]⟩

theorem retintBandFilled_work (run : RetintRun) (line : LineRec) (s : State) :
    RetintWork run s (retintBandFilled run line s) := by
  unfold retintBandFilled
  split
  · exact withStage_work (drawRect_drawn _ _ _ s) _ _
  · exact .inl rfl

theorem retintSpanDrawn_work (run : RetintRun) (line : LineRec) (s : State) :
    RetintWork run s (retintSpanDrawn run line s) := by
  unfold retintSpanDrawn
  split
  · exact withStage_work (drawEntries_drawn _ _ s) _ _
  · exact .inl rfl

theorem retintOverlayOp_work (run : RetintRun) (line : LineRec) (s : State) :
    RetintWork run s (retintOverlayOp run line s) := by
  unfold retintOverlayOp
  split
  · exact withStage_work (drawNextOp_drawn _ _ _ s) _ _
  · exact .inl rfl

theorem retintOp_fit {op : RetintRun → LineRec → State → State} (hop : ∀ run line s, RetintWork run s (op run line s))
    {s : State} (hone : s.comp.retints.countP (fun e => e.run.isSome) ≤ 1) (h : RecordsFit s.comp) :
    RecordsFit (retintOp op s).comp := by
  unfold retintOp
  split
  · exact h
  · next e run hr =>
    obtain ⟨-, he, hrun⟩ := runningRetint_some hr
    split
    · next line _ =>
      rcases hop run line s with hc | ⟨run', hrel, hc⟩ <;> rw [hc]
      · exact h
      · exact h.withRun hone he hrun hrel
    · exact h

theorem retintLineRedrawn_fit {s : State} (hone : s.comp.retints.countP (fun e => e.run.isSome) ≤ 1)
    (h : RecordsFit s.comp) : RecordsFit (retintLineRedrawn s).comp := by
  cases hr : runningRetint s with
  | none =>
    rw [retintLineRedrawn_none hr]
    exact h
  | some x =>
    obtain ⟨-, he, hrun⟩ := runningRetint_some (e := x.1) (run := x.2) hr
    obtain ⟨o, ho, heq⟩ := retintLineRedrawn_some (e := x.1) (run := x.2) hr
    rw [heq]
    split
    · exact endRetint_fit (by rw [ho.comp]; exact h) (by rw [ho.comp]; exact he) hrun rfl rfl rfl
    · simp only [ho.comp]
      exact h.withRun hone he hrun rfl

theorem pagePaperFill_fit {s : State} (hone : s.comp.retints.countP (fun e => e.run.isSome) ≤ 1) (h : RecordsFit s.comp) :
    RecordsFit (pagePaperFill s).comp := by
  unfold pagePaperFill
  split
  · exact retintOp_fit retintBandFilled_work hone h
  · next j hj =>
    have hs := runningJob_started hj
    split
    · next hp => exact h.withStarted hs rfl rfl rfl (fun _ => h.room hs (by rw [hp]; rfl))
    · exact h

theorem glyphSpanDrawn_fit {s : State} (hone : s.comp.retints.countP (fun e => e.run.isSome) ≤ 1) (h : RecordsFit s.comp) :
    RecordsFit (glyphSpanDrawn s).comp := by
  unfold glyphSpanDrawn
  split
  · exact retintOp_fit retintSpanDrawn_work hone h
  · next j hj => exact jobSpanDrawn_fit h (runningJob_started hj)

theorem overlayOp_fit {s : State} (hone : s.comp.retints.countP (fun e => e.run.isSome) ≤ 1) (h : RecordsFit s.comp) :
    RecordsFit (overlayOp s).comp := by
  unfold overlayOp
  split
  · exact retintOp_fit retintOverlayOp_work hone h
  · next j hj => exact jobOverlayOp_fit h (runningJob_started hj)

/-! ### The arbiter (R47, R49, R97) -/

/-- No retint job of the queue is RUNNING. -/
def AllWait (c : Composition) : Prop := ∀ e ∈ c.retints, e.run = none

/-- While the raster path is free every retint job is WAITING (R47). -/
theorem PathDiscipline.allWait {s : State} (h : PathDiscipline s) (hp : s.comp.path = .free) : AllWait s.comp := by
  obtain ⟨-, hretint, -, hone⟩ := h
  have hne : s.comp.retints.countP (fun e => e.run.isSome) ≠ 1 := by
    intro h1
    have := hretint.mpr h1
    rw [hp] at this
    cases this
  have h0 : s.comp.retints.countP (fun e => e.run.isSome) = 0 := by omega
  intro e he
  have := List.countP_eq_zero.mp h0 e he
  simpa using this

/-- Where all retint jobs wait, each belongs to a LIVE record. -/
theorem RecordsFit.entry_live {c : Composition} (h : RecordsFit c) (hw : AllWait c) {e : RetintEntry} (he : e ∈ c.retints) :
    (frameAt c e.slot).state = .live := by
  rcases (h.entries e he).2 with ⟨hl, -⟩ | ⟨-, r, hr, -⟩
  · exact hl
  · rw [hw e he] at hr
    cases hr

/-- What the queue holds once its oldest WAITING job runs (R97). -/
theorem mem_runEntry {run : RetintRun} {l : List RetintEntry} {x : RetintEntry} (h : x ∈ runEntry run l) :
    x ∈ l ∨ ∃ e, l.find? (fun e => e.run.isNone) = some e ∧ x = { e with run := some run } := by
  induction l with
  | nil => cases h
  | cons a l ih =>
    unfold runEntry at h
    rw [List.find?_cons]
    split at h
    · next hn =>
      rw [hn]
      rcases List.mem_cons.mp h with rfl | hm
      · exact .inr ⟨a, rfl, rfl⟩
      · exact .inl (List.mem_cons_of_mem _ hm)
    · next hn =>
      rw [Bool.not_eq_true] at hn
      rw [hn]
      rcases List.mem_cons.mp h with rfl | hm
      · exact .inl (List.mem_cons_self ..)
      · exact (ih hm).imp_left (List.mem_cons_of_mem _)

theorem runEntry_slots (run : RetintRun) (l : List RetintEntry) : (runEntry run l).map (·.slot) = l.map (·.slot) := by
  induction l with
  | nil => rfl
  | cons a l ih =>
    unfold runEntry
    split
    · rfl
    · rw [List.map_cons, List.map_cons, ih]

/-- A retint job starts on its record, which stays LIVE (R97). -/
theorem startRetint_fit {s : State} (h : RecordsFit s.comp) (hw : AllWait s.comp) {e : RetintEntry}
    (he : waitingRetint s.comp = some e) : RecordsFit (startRetint e s).comp := by
  have hm := List.mem_of_find?_eq_some he
  have hf := h.withFrame_same (h.entries e hm).1 (f := { frameAt s.comp e.slot with retint := none }) rfl rfl rfl rfl
  unfold startRetint
  simp only
  refine (hf.withRetints (by rw [runEntry_slots]; exact List.Sublist.refl _) fun x hx => ?_).of_eq rfl rfl rfl rfl
  rcases mem_runEntry hx with hx | ⟨e', he', rfl⟩
  · exact hf.entries x hx
  · have heq : e' = e := Option.some.inj (he'.symm.trans he)
    subst heq
    obtain ⟨hlt, ⟨hl, hg, -⟩ | ⟨-, r, hr, -⟩⟩ := hf.entries e' hm
    · exact ⟨hlt, .inl ⟨hl, hg, fun r hr => by cases hr; rfl⟩⟩
    · rw [hw e' hm] at hr
      cases hr

/-- A latch changes the commit and the path of the composition alone (R117, R118). -/
theorem continueLatch_comp (c : CommitSpec) (next : Nat) (copied : List Nat) (deferred : Nat) (s : State) :
    ∃ commit path, (continueLatch c next copied deferred s).comp = { s.comp with commit := commit, path := path } := by
  unfold continueLatch
  split
  · exact ⟨_, _, rfl⟩
  · exact ⟨_, _, rfl⟩

theorem continueLatch_fit (c : CommitSpec) (next : Nat) (copied : List Nat) (deferred : Nat) {s : State}
    (h : RecordsFit s.comp) : RecordsFit (continueLatch c next copied deferred s).comp := by
  obtain ⟨commit, path, he⟩ := continueLatch_comp c next copied deferred s
  rw [he]
  exact h.of_eq rfl rfl rfl rfl

theorem latchTile_fit {s : State} (h : RecordsFit s.comp) : RecordsFit (latchTile s).comp := by
  unfold latchTile
  split
  · split
    · exact h.of_eq rfl rfl rfl rfl
    · split
      · exact continueLatch_fit _ _ _ _ h
      · exact continueLatch_fit _ _ _ _ h
  · exact h

/-! ### A job starts (R49) -/

theorem AllWait.releaseFrame {c : Composition} (h : AllWait c) (k : Nat) : AllWait (Machine.releaseFrame k c) := by
  intro e he
  rcases mem_dropRetints he with ⟨hm, -⟩ | ⟨e0, hm, r, -, -, hr, -⟩
  · exact h e hm
  · rw [h e0 hm] at hr
    cases hr

theorem AllWait.releaseAll {c : Composition} (h : AllWait c) (l : List Nat) : AllWait (Machine.releaseAll l c) :=
  List.foldlRecOn (motive := AllWait) l _ h fun _ hd k _ => hd.releaseFrame k

/-- Step 4 of R49: afterwards a slot is FREE. -/
theorem evict_fit {c : Composition} (h : RecordsFit c) (hw : AllWait c) (hn : c.started = none) :
    RecordsFit (evict c).1 ∧ AllWait (evict c).1 ∧ (evict c).1.started = none
      ∧ ∃ k, freeSlot (evict c).1 = some k ∧ k < 8 ∧ (frameAt (evict c).1 k).state = .free := by
  by_cases hfree : ∃ i, i < 8 ∧ (frameAt c i).state = .free
  · obtain ⟨k, hk, hlt, hst, -⟩ := freeSlot_spec c hfree
    have he : evict c = (c, none) := by simp [evict, hk]
    rw [he]
    exact ⟨h, hw, hn, k, hk, hlt, hst⟩
  · have allLive : ∀ i, i < 8 → (frameAt c i).state = .live := by
      intro i hi
      cases hs : (frameAt c i).state with
      | live => rfl
      | free => exact absurd ⟨i, hi, hs⟩ hfree
      | opened =>
        obtain ⟨j, hj, -⟩ := h.opened i hs
        rw [hn] at hj
        cases hj
    have hnone : freeSlot c = none := by
      rw [freeSlot, List.head?_eq_none_iff, List.eq_nil_iff_forall_not_mem]
      intro i hi
      obtain ⟨hlt, hs⟩ := (mem_framesWhere _ _ _).mp hi
      exact hfree ⟨i, hlt, by simpa using hs⟩
    have h0 : 0 ∈ c.liveOrder := (h.live 0).mpr ⟨by decide, allLive 0 (by decide)⟩
    obtain ⟨k, more, ho⟩ := List.exists_cons_of_ne_nil (List.ne_nil_of_mem h0)
    obtain ⟨hlt, hl⟩ := (h.live k).mp (by rw [ho]; exact List.mem_cons_self ..)
    have he : evict c = (releaseFrame k c, some (k, (frameAt c k).gen)) := by simp [evict, hnone, ho]
    rw [he]
    have freed : (frameAt (releaseFrame k c) k).state = .free := by
      rw [frameAt_releaseFrame k k c (by rw [h.frames]; exact hlt), if_pos rfl]
      rfl
    obtain ⟨f, hf, hflt, hfst, -⟩ := freeSlot_spec (releaseFrame k c) ⟨k, hlt, freed⟩
    exact ⟨h.release_live hlt hl, hw.releaseFrame k, hn, f, hf, hflt, hfst⟩

/-- Step 5 of R49: a FREE slot is opened for the job. -/
theorem RecordsFit.open {c d : Composition} (h : RecordsFit c) (hw : AllWait c) (hn : c.started = none) {k : Nat}
    (hk : k < 8) (hf : (frameAt c k).state = .free) {j : Job} (hs : d.started = some j) (hslot : j.slot = k)
    (hd : d.frames = c.frames.set k (openFrame j.spec j.gen)) (ho : d.liveOrder = c.liveOrder)
    (hr : d.retints = c.retints) : RecordsFit d := by
  have hfr : ∀ i, frameAt d i = if i = k then openFrame j.spec j.gen else frameAt c i := by
    intro i
    rw [← frameAt_withFrame k i _ c (by rw [h.frames]; exact hk), frameAt, hd]
    rfl
  constructor <;> simp only [hfr, hd, ho, hr, hs]
  · rw [List.length_set]
    exact h.frames
  · intro i
    split
    · exact Nat.zero_le _
    · exact h.lines i
  · exact h.order
  · intro i
    rw [h.live i]
    by_cases hi : i = k
    · simp [hi, hf, openFrame]
    · simp [hi]
  · exact h.slots
  · intro e he
    have hl := h.entry_live hw he
    have hne : e.slot ≠ k := by
      intro heq
      rw [heq, hf] at hl
      cases hl
    rw [if_neg hne]
    exact h.entries e he
  · intro i hi
    cases hi
    rw [hslot, if_pos rfl]
    exact ⟨hk, rfl, rfl, rfl, fun _ => (by decide : 0 < 256)⟩
  · intro i hi
    split at hi
    · next heq => exact ⟨j, rfl, hslot.trans heq.symm⟩
    · obtain ⟨i', hi', -⟩ := h.opened i hi
      rw [hn] at hi'
      cases hi'

theorem overlapping_live {s : State} {j : JobSpec} {i : Nat} (h : i ∈ overlapping s j) :
    i < 8 ∧ (frameAt s.comp i).state = .live := by
  obtain ⟨hlt, hmeets⟩ := (mem_framesWhere _ _ _).mp h
  simp only [Bool.and_eq_true, beq_iff_eq] at hmeets
  exact ⟨hlt, hmeets.1⟩

theorem startJob_fit {s : State} (h : RecordsFit s.comp) (hw : AllWait s.comp) (hn : s.comp.started = none) (j : JobSpec)
    (rest : List JobSpec) : RecordsFit (startJob j rest s).comp := by
  have released : RecordsFit (releaseAll (overlapping { s with settings := applyBoundary .jobBoundary s.settings } j) s.comp) :=
    h.releaseAll_live (framesWhere_nodup _ _) fun i hi =>
      overlapping_live (s := { s with settings := applyBoundary .jobBoundary s.settings }) hi
  obtain ⟨hfit, hwait, hnone, k, hk, hlt, hfree⟩ :=
    evict_fit released (hw.releaseAll _) ((releaseAll_holders _ _).1.trans hn)
  unfold startJob
  simp only [hk, Option.getD_some]
  exact hfit.open hwait hnone hlt hfree rfl rfl rfl rfl rfl

theorem rasterPathGrant_fit {s : State} (hd : PathDiscipline s) (h : RecordsFit s.comp) :
    RecordsFit (rasterPathGrant s).comp := by
  unfold rasterPathGrant
  split
  · next hfree =>
    simp only [Bool.and_eq_true, beq_iff_eq] at hfree
    have hw := hd.allWait hfree.2
    split
    · next e he => exact startRetint_fit h hw he
    · split
      · exact continueLatch_fit _ _ _ _ (h.of_eq rfl rfl rfl rfl)
      · split
        · next j hj =>
          exact (h.withStarted hj (j' := { j with running := true }) rfl rfl rfl (fun hb => h.room hj hb)).of_eq rfl rfl rfl
            rfl
        · next hn =>
          split
          · exact startJob_fit h hw hn _ _
          · exact h
  · exact h

end Sys2Proof.Machine
end

section
/-! SUPPORT. Every step keeps the frame records fitting, and with that every bounded table within its places (O54). -/

namespace Sys2Proof.Machine

/-! ### Work of the raster path -/

/-- No job is at work on the raster path. -/
structure RasterIdle (s : State) : Prop where
  job : runningJob s = none
  retint : runningRetint s = none
  commit : s.comp.commit = .empty

/-- Outside ACTIVE no job is at work (R170). -/
theorem RecordsWf.rasterIdle {s : State} (h : RecordsWf s) (hn : s.settings.power ≠ .active) : RasterIdle s := by
  obtain ⟨hs, hp, hc⟩ := ((recordsWf_iff s).mp h).2 hn
  exact ⟨by rw [runningJob, hs]; rfl, by rw [runningRetint, if_neg (by rw [hp]; decide)], hc⟩

/-- Work that keeps the records fitting and leaves the composition alone where no job is at work. -/
theorem RecordsWf.of_work {s t : State} (h : RecordsWf s) (hq : Quiet s t) (hfit : RecordsFit t.comp)
    (hidle : RasterIdle s → t.comp = s.comp) : RecordsWf t := by
  by_cases ha : s.settings.power = .active
  · exact h.of_active hfit hq.geometry.power ha
  · exact h.of_comp (hidle (h.rasterIdle ha)) hq.geometry.power

theorem RasterIdle.retintOp {s : State} (h : RasterIdle s) (op : RetintRun → LineRec → State → State) :
    Machine.retintOp op s = s := by rw [Machine.retintOp, h.retint]

theorem RasterIdle.overlayOp {s : State} (h : RasterIdle s) : Machine.overlayOp s = s := by
  rw [Machine.overlayOp, h.job]
  exact h.retintOp _

theorem RasterIdle.pagePaperFill {s : State} (h : RasterIdle s) : Machine.pagePaperFill s = s := by
  rw [Machine.pagePaperFill, h.job]
  exact h.retintOp _

theorem RasterIdle.glyphSpanDrawn {s : State} (h : RasterIdle s) : Machine.glyphSpanDrawn s = s := by
  rw [Machine.glyphSpanDrawn, h.job]
  exact h.retintOp _

theorem RasterIdle.replayEnd {s : State} (h : RasterIdle s) : Machine.replayEnd s = s := by
  rw [Machine.replayEnd, h.job]

theorem RasterIdle.lineSet {s : State} (h : RasterIdle s) : Machine.lineSet s = s := by
  rw [Machine.lineSet, h.job]

theorem RasterIdle.overlayLineDone {s : State} (h : RasterIdle s) : Machine.overlayLineDone s = s := by
  rw [Machine.overlayLineDone, h.job]

theorem RasterIdle.latchTile {s : State} (h : RasterIdle s) : Machine.latchTile s = s := by
  rw [Machine.latchTile, h.commit]

/-- The arbiter grants the path in ACTIVE only (R47). -/
theorem rasterPathGrant_inactive {s : State} (h : s.settings.power ≠ .active) : rasterPathGrant s = s := by
  rw [rasterPathGrant, if_neg (by simp [h])]

theorem rasterPathGrant_recordsWf {s : State} (hd : PathDiscipline s) (h : RecordsWf s) : RecordsWf (rasterPathGrant s) :=
  h.of_fit (rasterPathGrant_fit hd h.fit) (rasterPathGrant_quiet s).geometry.power fun hn => by
    rw [rasterPathGrant_inactive hn]
    exact ⟨rfl, rfl, rfl⟩

/-- At most one retint job is RUNNING (R45, R47). -/
theorem PathDiscipline.one_running {s : State} (h : PathDiscipline s) :
    s.comp.retints.countP (fun e => e.run.isSome) ≤ 1 := h.2.2.2

theorem idle_recordsWf {s : State} (hd : PathDiscipline s) (h : RecordsWf s) : RecordsWf (idle s) :=
  h.of_work (idle_quiet s) (overlayOp_fit (s := tick s) hd.one_running h.fit) fun hi =>
    (congrArg State.comp (RasterIdle.overlayOp (s := tick s) ⟨hi.job, hi.retint, hi.commit⟩)).trans (tick_comp s)

/-! ### Scans, lanes and timers leave the composition alone -/

theorem panelFrameBoundary_comp (s : State) : (panelFrameBoundary s).comp = s.comp := by
  unfold panelFrameBoundary
  split <;> rfl

theorem laneFrame_comp (lane : Nat) (s : State) : (laneFrame lane s).comp = s.comp := by
  unfold laneFrame
  split
  · rfl
  · split <;> rfl

theorem visitLane_comp (s : State) (lane : Nat) : (visitLane s lane).comp = s.comp := by
  unfold visitLane
  split
  · split <;> rfl
  · rfl

theorem dispatchScan_comp (s : State) : (dispatchScan s).comp = s.comp := by
  unfold dispatchScan
  split
  · refine List.foldlRecOn (motive := fun u : State => u.comp = s.comp) _ visitLane ?_ fun u hu lane _ =>
      (visitLane_comp u lane).trans hu
    rfl
  · rfl

theorem updateCompletion_comp (lane : Nat) (s : State) : (updateCompletion lane s).comp = s.comp := by
  unfold updateCompletion
  split
  · rfl
  · split <;> rfl

theorem deghostExpiry_comp (s : State) : (deghostExpiry s).comp = s.comp := by
  unfold deghostExpiry
  split <;> rfl

theorem temperatureStale_comp (s : State) : (temperatureStale s).comp = s.comp := by
  unfold temperatureStale
  split <;> rfl

/-! ### All events -/

/-- The start-up scan ends in STANDBY, with no job at work as in STARTING (R170, R172). -/
theorem startupScanEnd_recordsWf {s : State} (h : RecordsWf s) : RecordsWf (startupScanEnd s) := by
  unfold startupScanEnd
  split
  · next hp =>
    exact (recordsWf_iff _).mpr ⟨h.fit, fun _ => ((recordsWf_iff s).mp h).2 (by rw [hp.1]; decide)⟩
  · exact h

theorem replySent_recordsWf {s : State} (h : RecordsWf s) : RecordsWf (replySent s) := by
  unfold replySent
  split
  · exact h
  · exact portEvents_keeps_blocks LinkOnly.recordsWf resetPart_recordsWf _ h

theorem handOver_recordsWf {s : State} (hd : PathDiscipline s) (h : RecordsWf s) : RecordsWf (handOver s) :=
  handOver_keeps_blocks LinkOnly.recordsWf (fun r _ => ownerState_recordsWf r hd h) h

/-- Every event keeps the frame records fitting. -/
theorem eventState_recordsWf (i : Instr) {s : State} (hd : PathDiscipline s) (h : RecordsWf s) :
    RecordsWf (eventState i s) := by
  have hone := hd.one_running
  cases i with
  | frameReceived l => exact portEvents_keeps_blocks LinkOnly.recordsWf resetPart_recordsWf l h
  | abandonedFrame second => exact portEvents_keeps_blocks LinkOnly.recordsWf resetPart_recordsWf [.byte second] h
  | handOver => exact handOver_recordsWf hd h
  | replySent => exact replySent_recordsWf h
  | fontEndComplete => exact (fontEndComplete_ends s).recordsWf h
  | fontDropComplete => exact (fontDropComplete_ends s).recordsWf h
  | fontLockComplete => exact (fontLockComplete_ends s).recordsWf h
  | fontCheckComplete => exact (fontCheckComplete_ends s).recordsWf h
  | protectRaiseComplete => exact (protectRaiseComplete_ends s).recordsWf h
  | storeWipeComplete => exact (storeWipeComplete_ends s).recordsWf h
  | writeEntryProgrammed =>
    exact h.of_comp (writeEntryProgrammed_work s).comp (writeEntryProgrammed_work s).quiet.geometry.power
  | rasterPathGrant => exact rasterPathGrant_recordsWf hd h
  | replayEnd => exact h.of_work (replayEnd_quiet s) (replayEnd_fit h.fit) fun hi => congrArg State.comp hi.replayEnd
  | pagePaperFill =>
    exact h.of_work (pagePaperFill_quiet s) (pagePaperFill_fit hone h.fit) fun hi => congrArg State.comp hi.pagePaperFill
  | lineSet => exact h.of_work (lineSet_quiet s) (lineSet_fit h.fit) fun hi => congrArg State.comp hi.lineSet
  | glyphSpanDrawn =>
    exact h.of_work (glyphSpanDrawn_quiet s) (glyphSpanDrawn_fit hone h.fit) fun hi => congrArg State.comp hi.glyphSpanDrawn
  | overlayLineDone =>
    exact h.of_work (overlayLineDone_quiet s) (overlayLineDone_fit h.fit) fun hi => congrArg State.comp hi.overlayLineDone
  | retintLineRedrawn =>
    exact h.of_work (retintLineRedrawn_quiet s) (retintLineRedrawn_fit hone h.fit) fun hi =>
      congrArg State.comp (retintLineRedrawn_none hi.retint)
  | latchTile => exact h.of_work (latchTile_quiet s) (latchTile_fit h.fit) fun hi => congrArg State.comp hi.latchTile
  | panelFrameBoundary => exact h.of_comp (panelFrameBoundary_comp s) (panelFrameBoundary_quiet s).geometry.power
  | laneFrame lane => exact h.of_comp (laneFrame_comp lane s) (laneFrame_quiet lane s).geometry.power
  | dispatchScan => exact h.of_comp (dispatchScan_comp s) (dispatchScan_quiet s).geometry.power
  | updateCompletion lane => exact h.of_comp (updateCompletion_comp lane s) (updateCompletion_quiet lane s).geometry.power
  | deghostExpiry => exact h.of_comp (deghostExpiry_comp s) (deghostExpiry_quiet s).geometry.power
  | temperatureStale => exact h.of_comp (temperatureStale_comp s) (temperatureStale_quiet s).geometry.power
  | resetPin => exact resetPart_recordsWf .pin s
  | startupScanEnd => exact startupScanEnd_recordsWf h
  | _ => exact h

theorem Stepped.recordsWf {s t : State} (h : Stepped s t) (hd : PathDiscipline s) (hs : RecordsWf s) : RecordsWf t := by
  cases h with
  | idles => exact idle_recordsWf hd hs
  | presents tag r => exact present_keeps_blocks LinkOnly.recordsWf (fun q => ownerState_recordsWf q hd hs) tag r hs
  | takes i => exact eventState_recordsWf i hd hs

/-- Settles O54: a step over a queue of commands idles, presents a request or takes an event, and each keeps each
condition. -/
theorem boundedKept : Obligations.BoundedKept := by
  refine ⟨fun s t hs h => ?_, fun s t hd hs h => ?_, fun s t hr hs h => ?_, fun s t hs h => ?_, fun s t hs h => ?_⟩ <;>
    obtain ⟨rest, h⟩ := step_stepped h
  · exact h.bounded hs
  · exact h.recordsWf hd hs
  · exact h.tilesWf hr hs
  · exact h.notesWf hs
  · exact h.portWf hs

end Sys2Proof.Machine
end

section
/-! SUPPORT. The style stack under the records of a replay and around a margin item, and the end of the REPLAY pass
(R17 to R22, R48, R53 to R55, R92). -/

namespace Sys2Proof.Machine

/-! ### Pushes, pops and patches (R18 to R20) -/

theorem pushStyle_room {st : StyleStack} (h : st.flow.length < 6) (table : List Style) (id : Nat) :
    pushStyle table id st = .ok { st with flow := st.flow ++ [table.getD id Style.default] } := if_pos h

theorem pushStyle_full_lenient {st : StyleStack} (h : 6 ≤ st.flow.length) (hm : st.mode = .lenient) (table : List Style)
    (id : Nat) : pushStyle table id st = .ok { st with ignored := st.ignored + 1 } := by
  rw [pushStyle, if_neg (Nat.not_lt.mpr h), hm]

theorem pushStyle_full_strict {st : StyleStack} (h : 6 ≤ st.flow.length) (hm : st.mode = .strict) (table : List Style)
    (id : Nat) : pushStyle table id st = .error .styleOverflow := by
  rw [pushStyle, if_neg (Nat.not_lt.mpr h), hm]

theorem popStyle_ignored {st : StyleStack} (h : 0 < st.ignored) :
    popStyle st = .ok { st with ignored := st.ignored - 1 } := if_pos h

theorem popStyle_top {st : StyleStack} (h : st.ignored = 0) (h2 : 2 ≤ st.flow.length) :
    popStyle st = .ok { st with flow := st.flow.dropLast } := by
  rw [popStyle, if_neg (by omega), if_pos h2]

theorem popStyle_base_lenient {st : StyleStack} (h : st.ignored = 0) (h1 : st.flow.length ≤ 1) (hm : st.mode = .lenient) :
    popStyle st = .ok st := by
  rw [popStyle, if_neg (by omega), if_neg (by omega), hm]

theorem popStyle_base_strict {st : StyleStack} (h : st.ignored = 0) (h1 : st.flow.length ≤ 1) (hm : st.mode = .strict) :
    popStyle st = .error .styleUnderflow := by
  rw [popStyle, if_neg (by omega), if_neg (by omega), hm]

theorem stackStep_patch {st : StyleStack} {below : List Style} {top : Style} (h : st.flow = below ++ [top])
    (table : List Style) (f : StyleFields) :
    stackStep table (.stylePatch f) st = .ok { st with flow := below ++ [applyFields top f] } := by
  simp [stackStep, patchStyle, h]

/-! ### Boundaries and ends of a job, over its frame record -/

theorem frameAt_of_some {c : Composition} {i : Nat} {f : FrameRec} (h : c.frames[i]? = some f) : frameAt c i = f := by
  simp [frameAt, h]

theorem frames_set {c : Composition} {i : Nat} {f : FrameRec} (h : c.frames[i]? = some f) (g : FrameRec) :
    (c.frames.set i g)[i]? = some g := by
  obtain ⟨hlt, -⟩ := List.getElem?_eq_some_iff.mp h
  simp [hlt]

theorem atBoundary_abort (go : State → State) {s : State} {j : Job} (h : s.comp.started = some j)
    (ha : j.abortAsked = true) : atBoundary go s = endAborted j .running s := by
  simp [atBoundary, h, ha]

/-- The position where an ended job's successor would begin, over the lines recorded (R54, R55). -/
theorem resumePosition_eq (s : State) (j : Job) :
    resumePosition s j = ((jobLines s j).getLast?.map (·.stop)).getD j.spec.start := by
  unfold resumePosition
  cases (jobLines s j).getLast? <;> rfl

/-- A job that ended without a record: its slot is released and the path is free (R54, R55). -/
theorem dropStarted_release_spec {c : Composition} {j : Job} (hr : j.running = true) {f : FrameRec}
    (hf : c.frames[j.slot]? = some f) :
    (dropStarted j (releaseFrame j.slot c)).started = none ∧ (dropStarted j (releaseFrame j.slot c)).path = .free
      ∧ frameAt (dropStarted j (releaseFrame j.slot c)) j.slot = FrameRec.vacant f.gen := by
  obtain ⟨hlt, -⟩ := List.getElem?_eq_some_iff.mp hf
  refine ⟨rfl, if_pos hr, ?_⟩
  have hat := frameAt_releaseFrame j.slot j.slot c hlt
  rw [if_pos rfl, frameAt_of_some hf] at hat
  exact hat

/-- CLOSE (R53). -/
theorem closeJob_eq {s : State} {j : Job} (hj : s.comp.started = some j) (hr : j.running = true) {f : FrameRec}
    (hf : s.comp.frames[j.slot]? = some f) :
    closeJob s
      = post (doneNotice j f.lines)
        { s with
          comp :=
            { s.comp with
              started := none
              path := .free
              liveOrder := s.comp.liveOrder ++ [j.slot]
              frames := s.comp.frames.set j.slot (closedFrame j f)
              retints := if f.late = none then s.comp.retints else s.comp.retints ++ [⟨j.slot, j.gen, none⟩] } } := by
  simp only [closeJob, hj, frameAt_of_some hf, dropStarted, hr, if_true]
  cases f.late <;> rfl

/-- The overlay snapshot taken of the job's flow (R95). -/
def snapshotTaken (j : Job) (f : FrameRec) (s : State) : State :=
  { s with comp := withFrame j.slot { f with snapshot := some (snapshotOf s f.flow) } s.comp }

theorem beginOverlay_noLines {s : State} {j : Job} (hj : s.comp.started = some j) {f : FrameRec}
    (hf : s.comp.frames[j.slot]? = some f) (hl : f.lines = []) :
    beginOverlay s = atBoundary closeJob (snapshotTaken j f s) := by
  simp only [beginOverlay, hj, frameAt_of_some hf, hl, List.isEmpty_nil, if_true, snapshotTaken]

/-- A job that goes on into its OVERLAY pass without lines ends DONE at once (R53, R95). -/
theorem overlay_done {s : State} {j : Job} (hj : s.comp.started = some j) (hr : j.running = true)
    (ha : j.abortAsked = false) (hw : anyRetintWaiting s.comp = false) {f : FrameRec}
    (hf : s.comp.frames[j.slot]? = some f) (hl : f.lines = []) :
    atBoundary beginOverlay s
      = post (doneNotice j [])
        { s with
          comp :=
            { s.comp with
              started := none
              path := .free
              liveOrder := s.comp.liveOrder ++ [j.slot]
              frames := s.comp.frames.set j.slot (closedFrame j f)
              retints := if f.late = none then s.comp.retints else s.comp.retints ++ [⟨j.slot, j.gen, none⟩] } } := by
  have closed := closeJob_eq (s := snapshotTaken j f s) hj hr (frames_set hf _)
  rw [atBoundary_go _ hj ha hw, beginOverlay_noLines hj hf hl, atBoundary_go (s := snapshotTaken j f s) _ hj ha hw, closed]
  simp [snapshotTaken, withFrame, closedFrame, hl]

/-! ### The end of the REPLAY pass (R21, R22) -/

/-- The replayed stack handed to the frame record, with the job moved on (R22). -/
def stackHanded (st : StyleStack) (f : FrameRec) (j : Job) (s : State) : State :=
  withJob j { s with comp := withFrame j.slot { f with stack := st } s.comp }

theorem stackHanded_frame {s : State} {j : Job} {f : FrameRec} (hf : s.comp.frames[j.slot]? = some f) (st : StyleStack) :
    (stackHanded st f j s).comp.frames[j.slot]? = some { f with stack := st } := frames_set hf _

/-- The job at the FILL pass after its replay (R21). -/
def filling (st : StyleStack) (p : Pos) (j : Job) : Job := { j with stack := st, current := p, phase := .fill }

/-- The job whose start lies at or past its limit (R21). -/
def pastLimit (st : StyleStack) (p : Pos) (j : Job) : Job :=
  { j with stack := st, current := p, stop := ⟨j.limit, 0⟩, phase := .overlay 0 }

/-- REPLAY_END of a running job, after what its replay came to (R21, R22). -/
theorem replayEnd_eq {s : State} {j : Job} (hj : s.comp.started = some j) (hr : j.running = true) (hp : j.phase = .replay)
    {f : FrameRec} (hf : s.comp.frames[j.slot]? = some f) {p : Pos} (hpos : p = normalise (jobRecs s j) j.spec.start)
    {st : StyleStack} {bad : Option (FailReason × Pos)}
    (hrun : runStyles s.styles ((jobRecs s j).take p.run) 0 j.stack = (st, bad)) :
    replayEnd s
      = match bad with
        | some e => endFailed j e.1 e.2 .replay s
        | none =>
          if j.limit ≤ p.run then
            atBoundary beginOverlay (stackHanded st f (pastLimit st p j) s)
          else atBoundary id (stackHanded st f (filling st p j) s) := by
  subst hpos
  rw [replayEnd, runningJob_eq hj hr]
  simp only [hp, hrun, frameAt_of_some hf]
  cases bad <;> rfl

/-- The boundary after the replay ends the job when an abort was recorded (R55). -/
theorem handed_abort (go : State → State) {s : State} {j : Job} (hr : j.running = true) (ha : j.abortAsked = true)
    {f : FrameRec} (hf : s.comp.frames[j.slot]? = some f) (st : StyleStack) :
    ∃ c,
      atBoundary go (stackHanded st f j s)
        = post
          (.composeAborted j.spec.tag .running f.lines.length ((f.lines.getLast?.map (·.stop)).getD j.spec.start)
            (some ⟨j.slot, j.gen, j.overlapped, j.evicted⟩)) { s with comp := c }
      ∧ c.started = none ∧ c.path = .free ∧ frameAt c j.slot = FrameRec.vacant f.gen := by
  have hf' := stackHanded_frame hf st
  refine ⟨dropStarted j (releaseFrame j.slot (stackHanded st f j s).comp), ?_,
    dropStarted_release_spec (f := { f with stack := st }) hr hf'⟩
  have hl : jobLines (stackHanded st f j s) j = f.lines := by rw [jobLines, frameAt_of_some hf']
  rw [atBoundary_abort go rfl ha, endAborted, resumePosition_eq, hl]
  rfl

/-- A replay that failed ends the job FAILED (R54). -/
theorem endFailed_spec {s : State} {j : Job} (hr : j.running = true) {f : FrameRec}
    (hf : s.comp.frames[j.slot]? = some f) (reason : FailReason) (p : Pos) (pass : Pass) :
    ∃ c,
      endFailed j reason p pass s
        = post (.composeFailed j.spec.tag reason p pass f.lines.length ⟨j.slot, j.gen, j.overlapped, j.evicted⟩)
          { s with comp := c }
      ∧ c.started = none ∧ c.path = .free ∧ frameAt c j.slot = FrameRec.vacant f.gen := by
  refine ⟨_, ?_, dropStarted_release_spec hr hf⟩
  rw [endFailed, jobLines, frameAt_of_some hf]
  rfl

/-- Settles O32: the stack's operations case by case, a margin item's levels by the definition of the drawing of a line, and
REPLAY_END by what the replay came to and what the boundary after it finds. -/
theorem stackIsReplayed : Obligations.StackIsReplayed := by
  refine ⟨fun table id st => ⟨fun h => pushStyle_room h _ _, fun h hm => pushStyle_full_lenient h hm _ _,
      fun h hm => pushStyle_full_strict h hm _ _, popStyle_ignored, popStyle_top, popStyle_base_lenient,
      popStyle_base_strict, fun f below top h hc => ?_⟩,
    fun frame line w s n => ⟨⟨_, _, rfl, rfl, ?_⟩, rfl⟩,
    fun s j f recs p st bad hj hr hp hf hrecs hpos hrun => ?_⟩
  · exact ⟨applyFields top f, stackStep_patch h table f, fun s tag k hs hk htop =>
      exec_styleDefine_stores hs tag hk hc htop⟩
  · rw [← List.countP_eq_length_filter]
    rfl
  · subst hrecs
    have ended := replayEnd_eq hj hr hp hf hpos hrun
    have next : ∀ {u}, replayEnd s = u → exec .replayEnd s = .next u := congrArg Host.Outcome.next
    have waits : (∃ e ∈ s.comp.retints, e.run = none) → anyRetintWaiting s.comp = true := anyRetintWaiting_true
    have goes : (∀ e ∈ s.comp.retints, e.run ≠ none) → anyRetintWaiting s.comp = false := anyRetintWaiting_false
    refine ⟨fun hb hlt ha => ⟨fun hw => next ?_, fun hw => next ?_⟩,
      fun hb hle ha => ⟨fun hw hl => next ?_, fun hw => next ?_⟩, fun hb ha => ?_, fun reason at_ hb => ?_⟩ <;>
      subst hb
    · exact (ended.trans (if_neg (Nat.not_le.mpr hlt))).trans
        (atBoundary_go (s := stackHanded st f (filling st p j) s) (j := filling st p j) _ rfl ha (goes hw))
    · exact (ended.trans (if_neg (Nat.not_le.mpr hlt))).trans
        (atBoundary_suspend (s := stackHanded st f (filling st p j) s) (j := filling st p j) _ rfl ha (waits hw))
    · have done := overlay_done (s := stackHanded st f (pastLimit st p j) s) (j := pastLimit st p j) rfl hr ha (goes hw)
        (stackHanded_frame hf st) hl
      refine (ended.trans (if_pos hle)).trans (done.trans ?_)
      simp [stackHanded, withJob, withFrame, closedFrame, pastLimit, doneNotice, linesWith, sat16]
    · exact (ended.trans (if_pos hle)).trans
        (atBoundary_suspend (s := stackHanded st f (pastLimit st p j) s) (j := pastLimit st p j) _ rfl ha (waits hw))
    · by_cases hle : j.limit ≤ p.run
      · obtain ⟨c, he, hc⟩ := handed_abort beginOverlay (j := pastLimit st p j) hr ha hf st
        exact ⟨c, next ((ended.trans (if_pos hle)).trans he), hc⟩
      · obtain ⟨c, he, hc⟩ := handed_abort id (j := filling st p j) hr ha hf st
        exact ⟨c, next ((ended.trans (if_neg hle)).trans he), hc⟩
    · obtain ⟨c, he, hc⟩ := endFailed_spec hr hf reason at_ .replay
      exact ⟨c, next (ended.trans he), hc⟩

end Sys2Proof.Machine
end

section
/-! SUPPORT. What the Font Store's requests answer when nothing is held before them: FONT_BEGIN, GLYPH_PUT and the six store
operations (spec/02 2.3 to 2.7). -/

namespace Sys2Proof.Machine

/-! ### Font requests of a ready part -/

theorem exec_fontBegin {s : State} (h : Ready s) (tag : Byte) (slot : Nat) (hd : FontHeader) :
    exec (.fontBegin tag slot hd) s = .next (decidedInTurn tag 0x20#8 (takeFontBegin slot hd s)) :=
  congrArg Host.Outcome.next (present_ready h tag (.fontBegin slot hd))

theorem exec_glyphPut {s : State} (h : Ready s) (tag : Byte) (slot : Nat) (start : Option Nat) (glyphs : List GlyphRec) :
    exec (.glyphPut tag slot start glyphs) s = .next (decidedInTurn tag 0x21#8 (takeGlyphPut slot start glyphs s)) :=
  congrArg Host.Outcome.next (present_ready h tag (.glyphPut slot start glyphs))

theorem exec_fontEnd {s : State} (h : Ready s) (tag : Byte) (slot : Nat) :
    exec (.fontEnd tag slot) s = .next (decidedInTurn tag 0x22#8 (takeFontEnd slot s)) :=
  congrArg Host.Outcome.next (present_ready h tag (.fontEnd slot))

theorem exec_fontDrop {s : State} (h : Ready s) (tag : Byte) (slot : Nat) :
    exec (.fontDrop tag slot) s = .next (decidedInTurn tag 0x23#8 (takeFontDrop slot s)) :=
  congrArg Host.Outcome.next (present_ready h tag (.fontDrop slot))

theorem exec_fontLock {s : State} (h : Ready s) (tag : Byte) (slot : Nat) :
    exec (.fontLock tag slot) s = .next (decidedInTurn tag 0x24#8 (takeFontLock slot s)) :=
  congrArg Host.Outcome.next (present_ready h tag (.fontLock slot))

theorem exec_fontCheck {s : State} (h : Ready s) (tag : Byte) (slot : Nat) :
    exec (.fontCheck tag slot) s = .next (decidedInTurn tag 0x25#8 (takeFontCheck slot s)) :=
  congrArg Host.Outcome.next (present_ready h tag (.fontCheck slot))

theorem exec_fontList {s : State} (h : Ready s) (tag : Byte) :
    exec (.fontList tag) s = .next (decidedInTurn tag 0x26#8 (takeFontList s)) :=
  congrArg Host.Outcome.next (present_ready h tag .fontList)

theorem exec_glyphGet {s : State} (h : Ready s) (tag : Byte) (slot index : Nat) :
    exec (.glyphGet tag slot index) s = .next (decidedInTurn tag 0x27#8 (takeGlyphGet slot index s)) :=
  congrArg Host.Outcome.next (present_ready h tag (.glyphGet slot index))

theorem exec_protectRaise {s : State} (h : Ready s) (tag : Byte) (b : Nat) :
    exec (.protectRaise tag b) s = .next (decidedInTurn tag 0x28#8 (takeProtectRaise b s)) :=
  congrArg Host.Outcome.next (present_ready h tag (.protectRaise b))

theorem exec_storeWipe {s : State} (h : Ready s) (tag : Byte) :
    exec (.storeWipe tag) s = .next (decidedInTurn tag 0x29#8 (takeStoreWipe s)) :=
  congrArg Host.Outcome.next (present_ready h tag .storeWipe)

/-- A request decided when it is taken, with nothing held before it, is answered at once (R27). -/
theorem answers_now {u : State} (h : u.store.held = []) (tag kind : Byte) {x : State × Option (Status × ReplyFields)}
    {status : Status} {fields : ReplyFields} (hx : x = (u, some (status, fields))) :
    Host.Outcome.next (φ := Fault) (ρ := Refusal) (decidedInTurn tag kind x) = .next (replied tag kind status fields u) := by
  rw [hx, decidedInTurn_answered h]

/-- A store operation that begins, with nothing held before it, reserves a place (R27). -/
theorem begins_now {u : State} (h : u.store.held = []) (tag kind : Byte) {x : State × Option (Status × ReplyFields)}
    (hx : x = (u, none)) :
    Host.Outcome.next (φ := Fault) (ρ := Refusal) (decidedInTurn tag kind x) = .next (reservedFor tag kind u) := by
  rw [hx, decidedInTurn_begun h]

theorem badSlot_iff (slot : Nat) : badSlot slot = true ↔ 16 ≤ slot := by
  simp [badSlot, Config.fontSlots]

theorem badSlot_within {slot : Nat} (h : slot < 16) : badSlot slot = false := by
  simpa [badSlot, Config.fontSlots] using h

/-! ### FONT_BEGIN (R28) -/

theorem mem_bankRange {h : FontHeader} {b : Nat} : b ∈ bankRange h ↔ h.firstBank ≤ b ∧ b ≤ h.lastBank := by
  rw [bankRange, List.mem_range'_1]
  omega

/-- Some bank of a header's range is taken (R23). -/
theorem bankTaken_iff (st : FontStore) (h : FontHeader) :
    (bankRange h).any (fun b => !bankFree st b) = true
      ↔ ∃ b, h.firstBank ≤ b ∧ b ≤ h.lastBank ∧ bankFree st b = false := by
  simp [List.any_eq_true, mem_bankRange, and_assoc]

theorem takeFontBegin_badArgument {slot : Nat} {h : FontHeader} (hb : 16 ≤ slot ∨ headerInRange h = false) (s : State) :
    takeFontBegin slot h s = (s, some (.badArgument, .none)) := by
  rw [takeFontBegin, if_pos (by simpa [badSlot_iff] using hb)]

section Accepted

variable {slot : Nat} {h : FontHeader} {s : State} (hs : slot < 16) (hr : headerInRange h = true)

include hs hr

theorem takeFontBegin_busy (hb : (fontSlot s.store slot).busy = true) :
    takeFontBegin slot h s = (s, some (.busy, .none)) := by
  simp [takeFontBegin, badSlot_within hs, hr, hb]

theorem takeFontBegin_exists (hb : (fontSlot s.store slot).busy = false) (he : (fontSlot s.store slot).state ≠ .empty) :
    takeFontBegin slot h s = (s, some (.exists_, .none)) := by
  simp [takeFontBegin, badSlot_within hs, hr, hb, he]

theorem takeFontBegin_protected (hb : (fontSlot s.store slot).busy = false) (he : (fontSlot s.store slot).state = .empty)
    (hp : (∃ b, h.firstBank ≤ b ∧ b ≤ h.lastBank ∧ bankFree s.store b = false) ∨ h.firstBank < s.store.nv.boundary) :
    takeFontBegin slot h s = (s, some (.protected_, .none)) := by
  have refused : ((bankRange h).any (fun b => !bankFree s.store b) || decide (h.firstBank < s.store.nv.boundary)) = true := by
    rwa [Bool.or_eq_true, bankTaken_iff, decide_eq_true_eq]
  simp only [takeFontBegin, badSlot_within hs, hr, hb, he, refused]
  rfl

theorem takeFontBegin_ok (hb : (fontSlot s.store slot).busy = false) (he : (fontSlot s.store slot).state = .empty)
    (hf : ∀ b, h.firstBank ≤ b → b ≤ h.lastBank → bankFree s.store b = true) (hn : s.store.nv.boundary ≤ h.firstBank)
    (hq : s.store.writeQueue.length < 2) (ha : raiseAbove s.store h.firstBank = false) :
    takeFontBegin slot h s
      = ({ s with
            store :=
              { s.store with
                slots := s.store.slots.set slot ⟨.loading, false, false, some h, 0, 0⟩
                writeQueue := s.store.writeQueue ++ [.header slot h] } },
          some (.ok, .capacity (capacityOf h))) := by
  have free : (bankRange h).any (fun b => !bankFree s.store b) = false := by
    rw [← Bool.not_eq_true, bankTaken_iff]
    rintro ⟨b, h1, h2, h3⟩
    rw [hf b h1 h2] at h3
    cases h3
  have room : ¬s.store.writeQueue.length ≥ Config.writeQueueMax := Nat.not_le.mpr hq
  simp [takeFontBegin, badSlot_within hs, hr, hb, he, free, Nat.not_lt.mpr hn, room, ha, withSlot]

end Accepted

/-- Settles O20: the refusals of FONT_BEGIN in the order of its checks, then the request that passes them. -/
theorem fontBeginClaimsSlot : Obligations.FontBeginClaimsSlot := by
  intro s tag slot h ⟨ready, held⟩
  rw [exec_fontBegin ready]
  refine ⟨fun hb => ?_, fun hs hr => ⟨fun hb => ?_, fun hb he => ?_, fun hb he hp => ?_⟩,
    fun hs hr hb he hf hn hq ha => ?_⟩
  · exact answers_now held _ _ (takeFontBegin_badArgument hb s)
  · exact answers_now held _ _ (takeFontBegin_busy hs hr hb)
  · exact answers_now held _ _ (takeFontBegin_exists hs hr hb he)
  · exact answers_now held _ _ (takeFontBegin_protected hs hr hb he hp)
  · exact answers_now (by exact held) _ _ (takeFontBegin_ok hs hr hb he hf hn hq ha)

/-! ### GLYPH_PUT (R30) -/

theorem assignIndices_records (first : Nat) (l : List GlyphRec) : (assignIndices first l).map Prod.snd = l := by
  induction l generalizing first with
  | nil => rfl
  | cons g l ih => simp [assignIndices, ih]

/-- The records' indices are consecutive (R30). -/
theorem assignIndices_index (first : Nat) (l : List GlyphRec) {i : Nat} (hi : i < l.length) :
    ((assignIndices first l)[i]?).map Prod.fst = some (first + i) := by
  induction l generalizing first i with
  | nil => cases hi
  | cons g l ih =>
    cases i with
    | zero => rfl
    | succ i =>
      rw [assignIndices, List.getElem?_cons_succ, ih (first + 1) (Nat.lt_of_succ_lt_succ hi), Nat.succ_add_eq_add_succ]

/-- Indices that all fall below the glyph count pass check 5 (R30). -/
theorem indexBeyond_false {start : Option Nat} {cursor n count : Nat} (hn : 0 < n)
    (h : start.getD cursor + n ≤ count) : indexBeyond start (start.getD cursor) n count = false := by
  cases start with
  | none =>
    simp only [Option.getD_none] at h
    simp [indexBeyond]
    omega
  | some i =>
    simp only [Option.getD_some] at h
    simp [indexBeyond]
    omega

/-- A GLYPH_PUT with records that passes its nine checks (R30). -/
theorem takeGlyphPut_ok {slot : Nat} {start : Option Nat} {glyphs : List GlyphRec} {h : FontHeader} {s : State}
    (hs : slot < 16) (hne : glyphs ≠ []) (hm : ∀ g ∈ glyphs, glyphMalformed g = false)
    (hb : (fontSlot s.store slot).busy = false) (hl : (fontSlot s.store slot).state = .loading)
    (hh : (fontSlot s.store slot).header = some h)
    (hi : start.getD (fontSlot s.store slot).cursor + glyphs.length ≤ h.glyphCount)
    (hc : (glyphs.map storedSize).sum + (fontSlot s.store slot).used ≤ capacityOf h)
    (hq : s.store.writeQueue.length < 2) {first used : Nat} (hf : first = start.getD (fontSlot s.store slot).cursor)
    (hu : used = (fontSlot s.store slot).used + (glyphs.map storedSize).sum) :
    takeGlyphPut slot start glyphs s
      = ({ s with
            store :=
              { s.store with
                slots :=
                  s.store.slots.set slot { fontSlot s.store slot with cursor := first + glyphs.length, used := used }
                writeQueue := s.store.writeQueue ++ [.glyphs slot (assignIndices first glyphs)] } },
          some (.ok, .glyphPut (first + glyphs.length) (capacityOf h - used))) := by
  have wellFormed : glyphs.any glyphMalformed = false := by simpa using hm
  have within := indexBeyond_false (List.length_pos_iff.mpr hne) hi
  have fits : ¬(glyphs.map storedSize).sum > capacityOf h - (fontSlot s.store slot).used :=
    Nat.not_lt.mpr (Nat.le_sub_of_add_le hc)
  have room : ¬s.store.writeQueue.length ≥ Config.writeQueueMax := Nat.not_le.mpr hq
  have count : ((fontSlot s.store slot).header.map (·.glyphCount)).getD 0 = h.glyphCount := by
    rw [hh, Option.map_some, Option.getD_some]
  have capacity : ((fontSlot s.store slot).header.map capacityOf).getD 0 = capacityOf h := by
    rw [hh, Option.map_some, Option.getD_some]
  rw [hf, hu]
  simp [takeGlyphPut, badSlot_within hs, wellFormed, hb, hl, count, capacity, within, fits, hne, room, withSlot, firstIndex]

/-- Settles O21: the entries are those of `assignIndices` from the first index. -/
theorem glyphPutAssignsIndices : Obligations.GlyphPutAssignsIndices := by
  intro s tag slot start glyphs h ⟨ready, held⟩ hs hne hm hb hl hh hi hc hq
  refine ⟨_, _, assignIndices (start.getD (fontSlot s.store slot).cursor) glyphs, rfl, rfl, assignIndices_records _ _,
    fun i => assignIndices_index _ _, ?_⟩
  rw [exec_glyphPut ready]
  exact answers_now (by exact held) _ _ (takeGlyphPut_ok hs hne hm hb hl hh hi hc hq rfl rfl)

/-! ### The six store operations, taken (R27, R32, R34, R35, R37 to R39) -/

theorem opRuns_false {s : State} (h : s.store.op = none) : opRuns s = false := by
  rw [opRuns, h]
  rfl

theorem fontProtected_false {s : State} {v : FontSlot} (h : s.store.nv.boundary ≤ firstBankOf v) :
    fontProtected s v = false := by
  simpa [fontProtected] using h

/-- A slot outside the font table is a bad argument, whatever the operation. -/
theorem storeOperation_badSlot {slot : Nat} (h : 16 ≤ slot) (s : State) :
    takeFontEnd slot s = (s, some (.badArgument, .none)) ∧ takeFontDrop slot s = (s, some (.badArgument, .none))
      ∧ takeFontLock slot s = (s, some (.badArgument, .none)) ∧ takeFontCheck slot s = (s, some (.badArgument, .none)) := by
  have bad := (badSlot_iff slot).mpr h
  refine ⟨?_, ?_, ?_, ?_⟩
  · rw [takeFontEnd, if_pos bad]
  · rw [takeFontDrop, if_pos bad]
  · rw [takeFontLock, if_pos bad]
  · rw [takeFontCheck, if_pos bad]

/-- PROTECT_RAISE and STORE_WIPE are taken in STANDBY only (R38, R39). -/
theorem standbyOperation_refused {s : State} (h : s.settings.power ≠ .standby) (value : Nat) :
    takeProtectRaise value s = (s, some (.notInStandby, .none)) ∧ takeStoreWipe s = (s, some (.notInStandby, .none)) := by
  have refused : (s.settings.power != Power.standby) = true := by simpa using h
  exact ⟨by rw [takeProtectRaise, if_pos refused], by rw [takeStoreWipe, if_pos refused]⟩

section Begun

variable {slot : Nat} {s : State} (hs : slot < 16) (ho : s.store.op = none) (hb : (fontSlot s.store slot).busy = false)

include hs ho hb

theorem takeFontEnd_begins (hl : (fontSlot s.store slot).state = .loading) :
    takeFontEnd slot s = (beginOperation (.fontEnd slot s.store.writeQueue.length) slot s, none) := by
  simp [takeFontEnd, badSlot_within hs, opRuns_false ho, hb, hl]

/-- FONT_DROP taken: the dropped mark waits for an entry of the font that is being programmed (R34). -/
theorem takeFontDrop_begins (hne : (fontSlot s.store slot).state ≠ .empty)
    (hp : s.store.nv.boundary ≤ firstBankOf (fontSlot s.store slot)) (hu : fontInUse s slot = false) :
    takeFontDrop slot s
      = ({ s with
            store :=
              { s.store with
                slots := s.store.slots.set slot ⟨.empty, false, true, none, 0, 0⟩
                writeQueue := dropUnstarted slot s.store.writeQueue
                op :=
                  some (.fontDrop slot (firstBankOf (fontSlot s.store slot))
                    (((fontSlot s.store slot).header.map (·.lastBank)).getD 0))
                nv :=
                  if (dropUnstarted slot s.store.writeQueue).any (fun e => entrySlot e == slot) then s.store.nv
                  else markDropped s.store.nv slot } },
          none) := by
  simp [takeFontDrop, badSlot_within hs, opRuns_false ho, hb, hne, fontProtected_false hp, hu, withSlot, FontSlot.vacant]

theorem takeFontLock_begins (hr : (fontSlot s.store slot).state = .ready ∨ (fontSlot s.store slot).state = .damaged)
    (hp : s.store.nv.boundary ≤ firstBankOf (fontSlot s.store slot)) (hu : fontInUse s slot = false)
    (hl : (fontSlot s.store slot).locked = false) : takeFontLock slot s = (beginOperation (.fontLock slot) slot s, none) := by
  rcases hr with hr | hr <;>
    simp [takeFontLock, badSlot_within hs, opRuns_false ho, hb, hr, fontProtected_false hp, hu, hl]

theorem takeFontCheck_begins (hr : (fontSlot s.store slot).state = .ready ∨ (fontSlot s.store slot).state = .damaged) :
    takeFontCheck slot s = (beginOperation (.fontCheck slot) slot s, none) := by
  rcases hr with hr | hr <;> simp [takeFontCheck, badSlot_within hs, opRuns_false ho, hb, hr]

end Begun

theorem takeProtectRaise_begins {s : State} (ho : s.store.op = none) (hp : s.settings.power = .standby) {value : Nat}
    (hv : value ∈ [0, 4, 8, 16, 32]) (hn : s.store.nv.boundary < value) (hl : loadingBelow s.store value = false) :
    takeProtectRaise value s = ({ s with store := { s.store with op := some (.protectRaise value) } }, none) := by
  have known : ([0, 4, 8, 16, 32].contains value) = true := List.contains_iff_mem.mpr hv
  rw [takeProtectRaise, known]
  simp [hp, Nat.lt_asymm hn, opRuns_false ho, hl, Nat.ne_of_gt hn]

theorem takeStoreWipe_begins {s : State} (ho : s.store.op = none) (hp : s.settings.power = .standby)
    (hq : s.store.writeQueue = []) :
    takeStoreWipe s
      = ({ s with
            store :=
              { s.store with
                slots := s.store.slots.map (fun _ => ⟨.empty, false, true, none, 0, 0⟩)
                op := some .storeWipe
                nv := { s.store.nv with wipeMark := true } } },
          none) := by
  simp [takeStoreWipe, hp, opRuns_false ho, hq, FontSlot.vacant]

/-- Settles O22: each operation that passes its checks begins, and the two kinds of refusal. -/
theorem storeOperationsBegin : Obligations.StoreOperationsBegin := by
  intro s tag slot v ⟨ready, held⟩
  have begun : ∀ op, (beginOperation op slot s).store.held = [] := fun _ => held
  refine ⟨fun h => ?_, fun ha => ⟨fun b => ?_, ?_⟩,
    fun hs ho hv hb => ⟨fun hl => ?_, fun hne hp hu => ?_, fun hr hp hu hl => ?_, fun hr => ?_, fun b hp hm hn hl => ?_,
      fun hp hq => ?_⟩⟩
  · obtain ⟨badEnd, badDrop, badLock, badCheck⟩ := storeOperation_badSlot h s
    rw [exec_fontEnd ready, exec_fontDrop ready, exec_fontLock ready, exec_fontCheck ready]
    exact ⟨answers_now held _ _ badEnd, answers_now held _ _ badDrop, answers_now held _ _ badLock,
      answers_now held _ _ badCheck⟩
  · rw [exec_protectRaise ready]
    exact answers_now held _ _ (standbyOperation_refused (by rw [ha]; decide) b).1
  · rw [exec_storeWipe ready]
    exact answers_now held _ _ (standbyOperation_refused (by rw [ha]; decide) 0).2
  · subst hv
    rw [exec_fontEnd ready]
    exact begins_now (begun _) _ _ (takeFontEnd_begins hs ho hb hl)
  · subst hv
    refine ⟨_, _, rfl, fun hn => ?_, fun ⟨e, he, hslot⟩ => ?_,
      (exec_fontDrop ready tag slot).trans (begins_now (by exact held) _ _ (takeFontDrop_begins hs ho hb hne hp hu))⟩
    · rw [if_neg (by simpa using hn)]
    · rw [if_pos (List.any_eq_true.mpr ⟨e, he, by simpa using hslot⟩)]
  · subst hv
    rw [exec_fontLock ready]
    exact begins_now (begun _) _ _ (takeFontLock_begins hs ho hb hr hp hu hl)
  · subst hv
    rw [exec_fontCheck ready]
    exact begins_now (begun _) _ _ (takeFontCheck_begins hs ho hb hr)
  · rw [exec_protectRaise ready]
    exact begins_now (by exact held) _ _ (takeProtectRaise_begins ho hp hm hn hl)
  · rw [exec_storeWipe ready]
    exact begins_now (by exact held) _ _ (takeStoreWipe_begins ho hp hq)

end Sys2Proof.Machine
end

section
/-! SUPPORT. What the Font Store reports: FONT_LIST, GLYPH_GET, and the glyph and metrics lookups (spec/02 2.6, 2.8). -/

namespace Sys2Proof.Machine

/-! ### FONT_LIST (R36) -/

theorem fontList_slot (st : FontStore) {i : Nat} (hi : i < 16) :
    ((List.range Config.fontSlots).map (fontListEntry st))[i]? = some (fontListEntry st i) := by
  rw [List.getElem?_map, List.getElem?_range (by exact hi), Option.map_some]

theorem recordedOf_some {st : FontStore} {slot : Nat} {f : NvFont} (h : nvFont st slot = some f) :
    recordedOf st slot = f.checksum := by
  rw [recordedOf, h]
  rfl

section Entry

variable {st : FontStore} {i : Nat}

theorem fontListEntry_header_empty (h : (fontSlot st i).state = .empty) : (fontListEntry st i).header = none := by
  simp [fontListEntry, h]

theorem fontListEntry_header {v : FontHeader} (h : (fontSlot st i).state ≠ .empty) (hv : (fontSlot st i).header = some v) :
    (fontListEntry st i).header
      = some (v.nameTag, v.glyphCount, v.firstBank, v.lastBank, (currentGlyphs st i).length) := by
  simp [fontListEntry, h, hv]

theorem fontListEntry_upload (h : (fontSlot st i).state = .loading) :
    (fontListEntry st i).upload = some ((fontSlot st i).cursor, (fontSlot st i).used) := by
  simp [fontListEntry, h]

theorem fontListEntry_upload_none (h : (fontSlot st i).state ≠ .loading) : (fontListEntry st i).upload = none := by
  simp [fontListEntry, h]

theorem fontListEntry_checksum {f : NvFont} (h : (fontSlot st i).state = .ready ∨ (fontSlot st i).state = .damaged)
    (hf : nvFont st i = some f) : (fontListEntry st i).checksum = some f.checksum := by
  simp [fontListEntry, h, recordedOf_some hf]

theorem fontListEntry_checksum_none (h : (fontSlot st i).state = .empty ∨ (fontSlot st i).state = .loading) :
    (fontListEntry st i).checksum = none := by
  rcases h with h | h <;> simp [fontListEntry, h]

end Entry

/-- An index has a current record exactly when a current record bears it (R31). -/
theorem currentGlyph_isSome_iff (st : FontStore) (slot k : Nat) :
    (currentGlyph st slot k).isSome = true ↔ k ∈ (currentGlyphs st slot).map Prod.fst := by
  simp [currentGlyph]

/-- Where indices are distinct and below the glyph count, the number of current records is the number of indices that
have one (R36). -/
theorem currentGlyphs_length {st : FontStore} {slot count : Nat} (hn : ((currentGlyphs st slot).map Prod.fst).Nodup)
    (hc : ∀ p ∈ currentGlyphs st slot, p.1 < count) :
    (currentGlyphs st slot).length = ((List.range count).filter (fun k => (currentGlyph st slot k).isSome)).length := by
  have same : ((currentGlyphs st slot).map Prod.fst).Perm
      ((List.range count).filter (fun k => (currentGlyph st slot k).isSome)) := by
    refine (List.perm_ext_iff_of_nodup hn (List.nodup_range.filter _)).mpr fun k => ?_
    rw [List.mem_filter, currentGlyph_isSome_iff, List.mem_range]
    refine ⟨fun h => ⟨?_, h⟩, And.right⟩
    obtain ⟨p, hp, rfl⟩ := List.mem_map.mp h
    exact hc p hp
  rw [← same.length_eq, List.length_map]

/-! ### GLYPH_GET (R36) -/

section GlyphGet

variable {slot index : Nat} {s : State} (hs : slot < 16) (hb : (fontSlot s.store slot).busy = false)
  (he : (fontSlot s.store slot).state ≠ .empty)

include hs hb he

theorem takeGlyphGet_locked (hl : (fontSlot s.store slot).locked = true) :
    takeGlyphGet slot index s = (s, some (.locked, .none)) := by
  simp [takeGlyphGet, badSlot_within hs, hb, he, hl]

/-- GLYPH_GET of an index of an unlocked font: its current record, or NOT_FOUND (R36). -/
theorem takeGlyphGet_unlocked (hl : (fontSlot s.store slot).locked = false) {h : FontHeader}
    (hh : (fontSlot s.store slot).header = some h) (hi : index < h.glyphCount) :
    takeGlyphGet slot index s
      = (s, some
          (match currentGlyph s.store slot index with
            | none => (.notFound, .none)
            | some g => (.ok, .glyph index g))) := by
  simp only [takeGlyphGet, badSlot_within hs, hb, hl, hh, beq_eq_false_iff_ne.mpr he, Option.map_some, Option.getD_some,
    ge_iff_le, Nat.not_le.mpr hi]
  cases currentGlyph s.store slot index <;> rfl

end GlyphGet

/-! ### Lookups (R41, R42) -/

theorem lookups_empty {st : FontStore} {slot : Nat} (h : (fontSlot st slot).state = .empty) (index : Nat) :
    glyphLookup st slot index = .fallback 128 ∧ fontMetrics st slot = (0, 0) := by
  simp [glyphLookup, fallbackAdvance, fontMetrics, h]

section Lookups

variable {st : FontStore} {slot : Nat} {h : FontHeader} (hh : (fontSlot st slot).header = some h)

include hh

theorem fontMetrics_of_header (he : (fontSlot st slot).state ≠ .empty) : fontMetrics st slot = (h.ascent, h.descent) := by
  cases hst : (fontSlot st slot).state <;> simp_all [fontMetrics]

theorem fallbackAdvance_of_header (he : (fontSlot st slot).state ≠ .empty) :
    fallbackAdvance (fontSlot st slot) = h.defaultAdvance := by
  cases hst : (fontSlot st slot).state <;> simp_all [fallbackAdvance]

theorem glyphLookup_real {index : Nat} {g : GlyphRec} (hr : (fontSlot st slot).state = .ready) (hi : index < h.glyphCount)
    (hg : currentGlyph st slot index = some g) : glyphLookup st slot index = .real g := by
  simp [glyphLookup, hr, hh, hg, hi]

theorem glyphLookup_fallback {index : Nat} (he : (fontSlot st slot).state ≠ .empty)
    (hn : (fontSlot st slot).state ≠ .ready ∨ h.glyphCount ≤ index ∨ currentGlyph st slot index = none) :
    glyphLookup st slot index = .fallback h.defaultAdvance := by
  unfold glyphLookup
  simp only [fallbackAdvance_of_header hh he]
  split
  · next v g hr hv hg =>
    rw [hh] at hv
    cases hv
    rcases hn with hn | hn | hn
    · exact absurd hr hn
    · rw [if_neg (Nat.not_lt.mpr hn)]
    · rw [hn] at hg
      cases hg
  · rfl

end Lookups

/-- Settles O23: the entry of a slot is `fontListEntry`, field by field; GLYPH_GET and the lookups case by case. -/
theorem fontListAndGlyphGet : Obligations.FontListAndGlyphGet := by
  refine ⟨fun s tag slot index h => ⟨fun e rest ready hl he =>
      ⟨_, (exec_fontList ready tag).trans (congrArg Host.Outcome.next (decidedInTurn_waits hl he _ _ _))⟩,
      fun ⟨ready, held⟩ => ⟨⟨(List.range Config.fontSlots).map (fontListEntry s.store), rfl, fun i hi =>
        ⟨_, fontList_slot s.store hi, rfl, rfl, rfl, fontListEntry_header_empty, fun v hs hv =>
          ⟨_, fontListEntry_header hs hv, rfl, currentGlyphs_length⟩, fontListEntry_upload, fontListEntry_upload_none,
          fun _ => fontListEntry_checksum, fontListEntry_checksum_none⟩, ?_⟩,
      fun hs hb he hl hh hi => ⟨fun g hg => ?_, fun hg => ?_⟩, fun hs hb he hl => ?_⟩⟩,
    fun st slot index => ⟨fun h => lookups_empty h index, fun h he hh => ⟨fontMetrics_of_header hh he,
      fun g hr hi hg => glyphLookup_real hh hr hi hg, glyphLookup_fallback hh he⟩⟩⟩
  · rw [exec_fontList ready]
    exact answers_now held _ _ rfl
  · rw [exec_glyphGet ready]
    exact answers_now held _ _ (by rw [takeGlyphGet_unlocked hs hb he hl hh hi, hg])
  · rw [exec_glyphGet ready]
    exact answers_now held _ _ (by rw [takeGlyphGet_unlocked hs hb he hl hh hi, hg])
  · rw [exec_glyphGet ready]
    exact answers_now held _ _ (takeGlyphGet_locked hs hb he hl)

end Sys2Proof.Machine
end

section
/-! SUPPORT. The events of the Font Store: an entry programmed, the ends of the store operations, and the start-up scan
(spec/02 2.4 to 2.8, spec/11 11.4). -/

namespace Sys2Proof.Machine

/-! ### Programming (R29, R34) -/

/-- What the banks hold of a slot after another slot's content was replaced, and after its own was (R23). -/
theorem withNvFont_getElem? (nv : NvStore) (slot : Nat) (f : Option NvFont) (i : Nat) :
    (withNvFont nv slot f).fonts[i]? = if slot = i then nv.fonts[i]?.map (fun _ => f) else nv.fonts[i]? := by
  rw [withNvFont, List.getElem?_set]
  split
  · next h =>
    subst h
    by_cases hi : slot < nv.fonts.length
    · rw [if_pos hi, List.getElem?_eq_getElem hi, Option.map_some]
    · rw [if_neg hi, List.getElem?_eq_none (Nat.not_lt.mp hi), Option.map_none]
  · rfl

theorem programEntry_other (nv : NvStore) (e : WriteEntry) {i : Nat} (h : i ≠ entrySlot e) :
    (programEntry nv e).fonts[i]? = nv.fonts[i]? := by
  cases e <;> exact (withNvFont_getElem? ..).trans (if_neg h.symm)

theorem programEntry_header (nv : NvStore) {slot : Nat} (h : FontHeader) (hs : slot < nv.fonts.length) :
    (programEntry nv (.header slot h)).fonts[slot]? = some (some ⟨h, [], false, false, 0, false⟩) := by
  rw [programEntry, withNvFont_getElem?, if_pos rfl, List.getElem?_eq_getElem hs, Option.map_some]

theorem programEntry_glyphs {nv : NvStore} {slot : Nat} (recs : List (Nat × GlyphRec)) {f : NvFont}
    (hf : nv.fonts[slot]? = some (some f)) :
    (programEntry nv (.glyphs slot recs)).fonts[slot]? = some (some { f with glyphs := recs.foldl putGlyph f.glyphs }) := by
  rw [programEntry, withNvFont_getElem?, if_pos rfl, hf, Option.map_some, List.getD_eq_getElem?_getD, hf]
  rfl

theorem markDropped_other (nv : NvStore) {slot i : Nat} (h : i ≠ slot) : (markDropped nv slot).fonts[i]? = nv.fonts[i]? :=
  (withNvFont_getElem? ..).trans (if_neg h.symm)

theorem markDropped_slot {nv : NvStore} {slot : Nat} {f : NvFont} (hf : nv.fonts[slot]? = some (some f)) :
    (markDropped nv slot).fonts[slot]? = some (some { f with dropped := true }) := by
  rw [markDropped, withNvFont_getElem?, if_pos rfl, hf, Option.map_some, List.getD_eq_getElem?_getD, hf]
  rfl

theorem droppingSlot_eq_some (op : Option StoreOp) (slot : Nat) :
    droppingSlot op = some slot ↔ ∃ a b, op = some (.fontDrop slot a b) := by
  unfold droppingSlot
  split
  · next i a b => simp
  · next h => exact ⟨fun k => (by cases k), fun ⟨a, b, k⟩ => absurd k (h slot a b)⟩

theorem opAfterEntry_other {op : Option StoreOp} (h : ∀ slot n, op ≠ some (.fontEnd slot n)) : opAfterEntry op = op := by
  unfold opAfterEntry
  split
  · exact absurd rfl (h _ _)
  · rfl

/-- What the banks hold after the oldest entry is programmed, with the dropped mark that waited for it (R29, R34). -/
def programmed (nv : NvStore) (e : WriteEntry) (op : Option StoreOp) : NvStore :=
  if droppingSlot op = some (entrySlot e) then markDropped (programEntry nv e) (entrySlot e) else programEntry nv e

theorem writeEntryProgrammed_eq {s : State} {e : WriteEntry} {rest : List WriteEntry} (h : s.store.writeQueue = e :: rest) :
    writeEntryProgrammed s
      = { s with
          store :=
            { s.store with
              writeQueue := rest, nv := programmed s.store.nv e s.store.op, op := opAfterEntry s.store.op } } := by
  rw [writeEntryProgrammed, h]
  rfl

theorem programEntry_control (nv : NvStore) (e : WriteEntry) :
    (programEntry nv e).boundary = nv.boundary ∧ (programEntry nv e).wipeMark = nv.wipeMark := by
  cases e <;> exact ⟨rfl, rfl⟩

theorem programmed_control (nv : NvStore) (e : WriteEntry) (op : Option StoreOp) :
    (programmed nv e op).boundary = nv.boundary ∧ (programmed nv e op).wipeMark = nv.wipeMark := by
  unfold programmed
  split <;> exact programEntry_control nv e

theorem programmed_other (nv : NvStore) (e : WriteEntry) (op : Option StoreOp) {i : Nat} (h : i ≠ entrySlot e) :
    (programmed nv e op).fonts[i]? = nv.fonts[i]? := by
  unfold programmed
  split
  · exact (markDropped_other _ h).trans (programEntry_other nv e h)
  · exact programEntry_other nv e h

/-- The font that an entry leaves in its slot, with the dropped mark exactly while a FONT_DROP of the slot waits (R34). -/
theorem programmed_slot {nv : NvStore} {e : WriteEntry} {op : Option StoreOp} {f : NvFont} {dropping : Bool}
    (hf : (programEntry nv e).fonts[entrySlot e]? = some (some f))
    (hd : dropping = true ↔ droppingSlot op = some (entrySlot e)) :
    (programmed nv e op).fonts[entrySlot e]? = some (some { f with dropped := f.dropped || dropping }) := by
  unfold programmed
  cases dropping with
  | true => rw [if_pos (hd.mp rfl), markDropped_slot hf, Bool.or_true]
  | false => rw [if_neg (fun h => by cases hd.mpr h), hf, Bool.or_false]

/-- Settles O24: what `programmed` and `opAfterEntry` say of each slot and of the operation. -/
theorem writeEntryIsProgrammed : Obligations.WriteEntryIsProgrammed := by
  intro s e rest dropping hq hd
  rw [← droppingSlot_eq_some] at hd
  obtain ⟨boundary, wipe⟩ := programmed_control s.store.nv e s.store.op
  refine ⟨_, _, congrArg Host.Outcome.next (writeEntryProgrammed_eq hq), fun slot n ho => ?_, opAfterEntry_other, boundary,
    wipe, fun i => programmed_other _ e _, fun slot h he hlt => ?_, fun slot recs f he hf => ?_⟩
  · rw [ho]
    rfl
  · subst he
    exact (programmed_slot (programEntry_header _ h hlt) hd).trans (by rw [Bool.false_or])
  · subst he
    exact programmed_slot (programEntry_glyphs recs hf) hd

/-! ### The ends of the operations (R32 to R39) -/

theorem nvFont_of_getElem? {st : FontStore} {slot : Nat} {f : NvFont} (h : st.nv.fonts[slot]? = some (some f)) :
    nvFont st slot = some f := by
  rw [nvFont, List.getD_eq_getElem?_getD, h]
  rfl

theorem fontEndComplete_eq {s : State} {slot : Nat} (ho : s.store.op = some (.fontEnd slot 0)) {f : NvFont}
    (hf : nvFont s.store slot = some f) :
    fontEndComplete s
      = endOperation
        (.ok, .fontEnd (checksumUnlocked (currentGlyphs s.store slot)) (currentGlyphs s.store slot).length)
        { s with
          store :=
            { s.store with
              slots := s.store.slots.set slot ⟨.ready, false, false, (fontSlot s.store slot).header, 0, 0⟩
              nv :=
                withNvFont s.store.nv slot
                  (some
                    { f with
                      endMark := true, checksum := checksumUnlocked (currentGlyphs s.store slot), locked := false }) } } := by
  unfold fontEndComplete
  simp only [ho, hf, Option.map_some]
  rfl

theorem fontLockComplete_eq {s : State} {slot : Nat} (ho : s.store.op = some (.fontLock slot)) {h : FontHeader}
    (hh : (fontSlot s.store slot).header = some h) {f : NvFont} (hf : nvFont s.store slot = some f) :
    fontLockComplete s
      = endOperation (.ok, .fontLock (checksumLocked h))
        { s with
          store :=
            { s.store with
              slots := s.store.slots.set slot { fontSlot s.store slot with locked := true, busy := false }
              nv := withNvFont s.store.nv slot (some { f with locked := true, checksum := checksumLocked h }) } } := by
  unfold fontLockComplete
  simp only [ho, hh, hf, Option.map_some, Option.getD_some]
  rfl

/-- The store with a verified slot: READY or DAMAGED, and no longer busy (R37). -/
def verified (slot : Nat) (isMatch : Bool) (st : FontStore) : FontStore :=
  { st with
    slots := st.slots.set slot { fontSlot st slot with state := if isMatch then .ready else .damaged, busy := false } }

/-- The notices after a verification: FONT_DAMAGED is posted when a READY font is found damaged (R37). -/
def noticesAfterCheck (slot : Nat) (h : FontHeader) (f : NvFont) (s : State) : NoticeBuffer :=
  if nvChecksum f ≠ f.checksum ∧ (fontSlot s.store slot).state = .ready then
    (post (.fontDamaged slot h.nameTag (fontSlot s.store slot).locked f.checksum (nvChecksum f)) s).notices
  else s.notices

theorem fontCheckComplete_eq {s : State} {slot : Nat} (ho : s.store.op = some (.fontCheck slot)) {h : FontHeader}
    (hh : (fontSlot s.store slot).header = some h) {f : NvFont} (hf : nvFont s.store slot = some f) :
    fontCheckComplete s
      = endOperation (.ok, .fontCheck (decide (nvChecksum f = f.checksum)) f.checksum (nvChecksum f))
        { s with
          notices := noticesAfterCheck slot h f s
          store := verified slot (decide (nvChecksum f = f.checksum)) s.store } := by
  have computed : computedOf s.store slot = nvChecksum f := by rw [computedOf, hf, Option.map_some, Option.getD_some]
  have tag : ((fontSlot s.store slot).header.map (·.nameTag)).getD [] = h.nameTag := by
    rw [hh, Option.map_some, Option.getD_some]
  unfold fontCheckComplete
  simp only [ho, computed, recordedOf_some hf, tag]
  by_cases posted : nvChecksum f ≠ f.checksum ∧ (fontSlot s.store slot).state = .ready
  · have found : (!decide (nvChecksum f = f.checksum) && (fontSlot s.store slot).state == .ready) = true := by
      simpa using posted
    rw [noticesAfterCheck, if_pos posted, found]
    rfl
  · have found : (!decide (nvChecksum f = f.checksum) && (fontSlot s.store slot).state == .ready) = false := by
      simpa using posted
    rw [noticesAfterCheck, if_neg posted, found]
    rfl

/-- Settles O25: each operation's end, and the reply it fills. -/
theorem fontOperationsComplete : Obligations.FontOperationsComplete := by
  refine ⟨fun s slot tag kind f ho hh hr hs hf => ⟨_, rfl, congrArg Host.Outcome.next ?_⟩,
    fun s slot tag kind h f hh hr hs hd hf =>
      ⟨fun ho => congrArg Host.Outcome.next ?_, fun ho => ⟨nvChecksum f, decide (nvChecksum f = f.checksum),
        noticesAfterCheck slot h f s, fun hl => ?_, fun hl => ?_, decide_eq_true_iff, fun hn => ?_, fun hm hst => ?_,
        congrArg Host.Outcome.next ?_⟩⟩⟩
  · exact (fontEndComplete_eq ho (nvFont_of_getElem? hf)).trans (endOperation_fills tag kind _ hh hr)
  · exact (fontLockComplete_eq ho hd (nvFont_of_getElem? hf)).trans (endOperation_fills tag kind _ hh hr)
  · rw [nvChecksum, hl]
    rfl
  · rw [nvChecksum, hl]
    rfl
  · refine if_neg fun ⟨hm, hst⟩ => ?_
    rcases hn with hn | hn
    · exact hm (of_decide_eq_true hn)
    · exact hn hst
  · exact if_pos ⟨of_decide_eq_false hm, hst⟩
  · exact (fontCheckComplete_eq ho hd (nvFont_of_getElem? hf)).trans (endOperation_fills tag kind _ hh hr)

/-! ### The start-up scan (R40, R172) -/

/-- What the scan keeps of a slot's content: it erases a font with a dropped mark or without an end mark (R40). -/
def keptFont (o : Option NvFont) : Option NvFont := o.bind (fun f => if scanErases f then none else some f)

theorem keptFont_erased {f : NvFont} (h : f.dropped = true ∨ f.endMark = false) : keptFont (some f) = none := by
  rcases h with h | h <;> simp [keptFont, scanErases, h]

theorem keptFont_kept {f : NvFont} (hd : f.dropped = false) (he : f.endMark = true) : keptFont (some f) = some f := by
  simp [keptFont, scanErases, hd, he]

theorem scanBanks_of_no_wipe {nv : NvStore} (h : nv.wipeMark = false) :
    scanBanks nv = { nv with fonts := nv.fonts.map keptFont } := by
  rw [scanBanks, h]
  rfl

theorem scanBanks_of_wipe {nv : NvStore} (h : nv.wipeMark = true) : scanBanks nv = NvStore.delivered := by
  rw [scanBanks, if_pos h]

theorem scanSlot_not_loading (o : Option NvFont) : (scanSlot o).state ≠ .loading := by
  cases o with
  | none => decide
  | some f =>
    simp only [scanSlot]
    split <;> decide

/-- Slots of which none is LOADING are READY, DAMAGED or EMPTY. -/
theorem count_states {l : List FontSlot} (h : ∀ v ∈ l, v.state ≠ .loading) :
    l.countP (fun v => v.state == .ready) + l.countP (fun v => v.state == .damaged)
      + l.countP (fun v => v.state == .empty) = l.length := by
  induction l with
  | nil => rfl
  | cons v l ih =>
    have rest := ih fun w hw => h w (List.mem_cons_of_mem _ hw)
    have here := h v (List.mem_cons_self ..)
    simp only [List.countP_cons, List.length_cons]
    cases hv : v.state <;> simp_all <;> omega

theorem startupScanEnd_waits {s : State} (h : s.settings.power ≠ .starting ∨ s.pins.resetHeld = true) :
    startupScanEnd s = s := by
  refine if_neg fun ⟨hp, hr⟩ => ?_
  rcases h with h | h
  · exact h hp
  · simp [running, h] at hr

/-- The scan rebuilds the font table, posts STARTED, and the part is in STANDBY (R172). -/
theorem startupScanEnd_eq {s : State} (hp : s.settings.power = .starting) (hr : s.pins.resetHeld = false) :
    startupScanEnd s
      = { post (startedNotice s.store.nv { s with store := scanStore s.store }) s with
          store := scanStore s.store
          settings := { s.settings with power := .standby }
          lanes := { s.lanes with boundaryMs := 0, staleMs := 0 } } := by
  rw [startupScanEnd, if_pos ⟨hp, by rw [running, hr]; rfl⟩]
  rfl

/-- Settles O53: the store after the scan slot by slot, by what the banks held of it. -/
theorem scanEndsInStandby : Obligations.ScanEndsInStandby := by
  refine fun s => ⟨fun h => congrArg Host.Outcome.next (startupScanEnd_waits h), fun hp hr hw => ?_, fun hp hr hw => ?_⟩
  · have banks := scanBanks_of_no_wipe hw
    have store : scanStore s.store
        = { s.store with
            slots := (s.store.nv.fonts.map keptFont).map scanSlot
            nv := { s.store.nv with fonts := s.store.nv.fonts.map keptFont } } := by rw [scanStore, banks]
    refine ⟨(s.store.nv.fonts.map keptFont).map scanSlot, s.store.nv.fonts.map keptFont, _, _, _, _,
      congrArg Host.Outcome.next ((startupScanEnd_eq hp hr).trans ?_), by simp, count_states ?_,
      List.countP_eq_length_filter, List.countP_eq_length_filter, List.countP_eq_length_filter, fun i hi => ?_,
      fun i f hi => ⟨fun he => ?_, fun hd he => ?_⟩⟩
    · rw [startedNotice, store, scanErased, hw]
      rfl
    · intro v hv
      obtain ⟨o, -, rfl⟩ := List.mem_map.mp hv
      exact scanSlot_not_loading o
    · simp only [List.getElem?_map, hi]
      exact ⟨rfl, rfl⟩
    · simp only [List.getElem?_map, hi, Option.map_some, keptFont_erased he]
      exact ⟨rfl, trivial⟩
    · simp only [List.getElem?_map, hi, Option.map_some, keptFont_kept hd he]
      exact ⟨trivial, rfl⟩
  · have store : scanStore s.store
        = { s.store with slots := List.replicate 16 FontSlot.vacant, nv := NvStore.delivered } := by
      rw [scanStore, scanBanks_of_wipe hw]
      rfl
    refine congrArg Host.Outcome.next ((startupScanEnd_eq hp hr).trans ?_)
    rw [startedNotice, store, scanErased, hw]
    rfl

end Sys2Proof.Machine
end

section
/-! SUPPORT. What the link's own work leaves alone: an arrival, a byte taken or given, and a clock change the link and nothing
else, unless the last byte of a RESET's reply is given (R147, R149, R153, R156). -/

namespace Sys2Proof.Machine

/-- The link alone changes. -/
def LinkWork (s t : State) : Prop := t = { s with link := t.link }

theorem LinkWork.refl (s : State) : LinkWork s s := rfl

theorem linkWork_of_link (s : State) (l : LinkUnit) : LinkWork s { s with link := l } := rfl

theorem LinkWork.trans {a b c : State} (h : LinkWork a b) (k : LinkWork b c) : LinkWork a c := by
  unfold LinkWork at h k ⊢
  rw [h] at k
  exact k

theorem LinkWork.store {s t : State} (h : LinkWork s t) : t.store = s.store := by rw [h]
theorem LinkWork.pins {s t : State} (h : LinkWork s t) : t.pins = s.pins := by rw [h]
theorem LinkWork.pending {s t : State} (h : LinkWork s t) : t.pending = s.pending := by rw [h]
theorem LinkWork.settings {s t : State} (h : LinkWork s t) : t.settings = s.settings := by rw [h]

theorem arrive_linkWork (q : RawRequest) (s : State) : LinkWork s (arrive q s) := by
  unfold arrive
  repeat' split
  all_goals rfl

theorem receiveByte_linkWork (s : State) (b : Byte) : LinkWork s (receiveByte s b) := by
  have hunted : ∀ h, LinkWork s (withHunt h s) := fun _ => rfl
  unfold receiveByte
  split
  · exact .refl s
  · split
    case h_4 => split <;> exact hunted _
    case h_6 =>
      unfold judge
      split
      · exact (hunted _).trans (arrive_linkWork _ _)
      · exact hunted _
    all_goals exact hunted _

theorem giveByte_linkWork (o : Outgoing) (s : State) :
    LinkWork s (giveByte o s) ∨ ∃ u, LinkWork s u ∧ giveByte o s = resetPart .request u := by
  unfold giveByte
  split
  · simp only
    split
    · exact .inl rfl
    · unfold finishReply
      simp only
      split
      · exact .inr ⟨_, linkWork_of_link s _, rfl⟩
      · exact .inl rfl
  · exact .inl rfl

theorem exchange_linkWork (o : Outgoing) (b : Byte) (s : State) :
    LinkWork s (exchange o b s) ∨ ∃ u, LinkWork s u ∧ exchange o b s = resetPart .request u := by
  have received : LinkWork s (receiveByte { s with link := { s.link with port := Port.idle } } b) :=
    (linkWork_of_link s _).trans (receiveByte_linkWork _ b)
  rcases giveByte_linkWork o (receiveByte { s with link := { s.link with port := Port.idle } } b) with h | ⟨u, hu, h⟩
  · exact .inl (received.trans h)
  · exact .inr ⟨u, received.trans hu, h⟩

theorem clockBit_linkWork (bit : Bool) (s : State) :
    LinkWork s (clockBit bit s) ∨ ∃ u, LinkWork s u ∧ clockBit bit s = resetPart .request u := by
  unfold clockBit
  simp only
  split
  · exact .inl rfl
  · have noted : ∀ v, LinkWork s (noteBit v s) := fun _ => rfl
    refine (exchange_linkWork _ _ _).imp (noted _).trans ?_
    rintro ⟨u, hu, h⟩
    exact ⟨u, (noted _).trans hu, h⟩

/-- A condition that the link's work keeps, and that a RESET taking effect keeps, holds after whatever the host does at the
port (R147, R156). -/
theorem portEvents_keeps_linkWork {P : State → Prop} (link : ∀ {s t}, LinkWork s t → P s → P t)
    (reset : ∀ {u}, P u → P (resetPart .request u)) (l : List PortEvent) {s : State} (h : P s) : P (portEvents l s) := by
  refine portEvents_keeps (P := P) (fun b u hu => ?_) (fun u => link rfl) (fun u => link rfl) l h
  rcases clockBit_linkWork b u with hc | ⟨v, hv, hc⟩
  · exact link hc hu
  · rw [hc]
    exact reset (link hv hu)

end Sys2Proof.Machine
end

section
/-! SUPPORT. The work that leaves the Font Store alone: all events but its own, the scan and a reset, and all requests but its
own (spec/02). -/

namespace Sys2Proof.Machine

theorem Drawn.store {s t : State} (h : Drawn s t) : t.store = s.store := by rw [h.eq]

/-! ### The raster path -/

theorem continueLatch_store (c : CommitSpec) (next : Nat) (copied : List Nat) (deferred : Nat) (s : State) :
    (continueLatch c next copied deferred s).store = s.store := by
  unfold continueLatch
  split <;> rfl

theorem latchTile_store (s : State) : (latchTile s).store = s.store := by
  unfold latchTile
  split
  · split
    · rfl
    · split <;> exact continueLatch_store ..
  · rfl

theorem rasterPathGrant_store (s : State) : (rasterPathGrant s).store = s.store := by
  unfold rasterPathGrant
  split
  · split
    · rfl
    · split
      · exact continueLatch_store ..
      · split
        · rfl
        · split <;> rfl
  · rfl

theorem atBoundary_store {go : State → State} (h : ∀ s, (go s).store = s.store) (s : State) :
    (atBoundary go s).store = s.store := by
  unfold atBoundary
  split
  · rfl
  · split
    · rfl
    · split
      · rfl
      · exact h s

theorem closeJob_store (s : State) : (closeJob s).store = s.store := by
  unfold closeJob
  split <;> rfl

theorem beginOverlay_store (s : State) : (beginOverlay s).store = s.store := by
  unfold beginOverlay
  split
  · rfl
  · simp only
    split
    · exact atBoundary_store closeJob_store _
    · rfl

theorem replayEnd_store (s : State) : (replayEnd s).store = s.store := by
  unfold replayEnd
  split
  · rfl
  · split
    · simp only
      split
      · rfl
      · split
        · exact atBoundary_store beginOverlay_store _
        · exact atBoundary_store (fun _ => rfl) _
    · rfl

theorem finishLine_store (j : Job) (w : WorkingLine) (s : State) : (finishLine j w s).store = s.store := by
  unfold finishLine
  simp only
  split
  · exact atBoundary_store beginOverlay_store _
  · exact atBoundary_store (fun _ => rfl) _

theorem lineSet_store (s : State) : (lineSet s).store = s.store := by
  unfold lineSet
  split
  · rfl
  · split
    · simp only
      split
      · exact beginOverlay_store _
      · split
        · rfl
        · split
          · exact finishLine_store _ _ s
          · rfl
    · rfl

theorem jobSpanDrawn_store (j : Job) (s : State) : (jobSpanDrawn j s).store = s.store := by
  unfold jobSpanDrawn
  split
  · split
    · exact finishLine_store _ _ s
    · have drawn := fun l => (drawEntries_drawn j.spec.rect l s).store
      simp only [afterSpan]
      split
      · exact (atBoundary_store (finishLine_store _ _) _).trans (drawn _)
      · exact (atBoundary_store (fun _ => rfl) _).trans (drawn _)
  · rfl

theorem ensureSnapshot_store (j : Job) (s : State) : (ensureSnapshot j s).store = s.store := by
  unfold ensureSnapshot
  simp only
  split <;> rfl

theorem overlayJobLine_store (j : Job) (line : LineRec) (i : Nat) (s : State) :
    (overlayJobLine j line i s).store = s.store :=
  (finishOverlayLine_drawn _ line _ s).store

theorem overlayLineDone_store (s : State) : (overlayLineDone s).store = s.store := by
  unfold overlayLineDone
  split
  · rfl
  · split
    · simp only
      split
      · exact (atBoundary_store closeJob_store _).trans (ensureSnapshot_store _ s)
      · refine (atBoundary_store (fun u => ?_) _).trans ((overlayJobLine_store ..).trans (ensureSnapshot_store _ s))
        split
        · exact atBoundary_store closeJob_store u
        · rfl
    · rfl

theorem retintOp_store {op : RetintRun → LineRec → State → State} (h : ∀ r l s, (op r l s).store = s.store) (s : State) :
    (retintOp op s).store = s.store := by
  unfold retintOp
  split
  · rfl
  · split
    · exact h _ _ s
    · rfl

theorem pagePaperFill_store (s : State) : (pagePaperFill s).store = s.store := by
  unfold pagePaperFill
  split
  · refine retintOp_store (fun run line u => ?_) s
    unfold retintBandFilled
    split <;> rfl
  · split <;> rfl

theorem glyphSpanDrawn_store (s : State) : (glyphSpanDrawn s).store = s.store := by
  unfold glyphSpanDrawn
  split
  · refine retintOp_store (fun run line u => ?_) s
    unfold retintSpanDrawn
    split
    · exact (drawEntries_drawn _ _ u).store
    · rfl
  · exact jobSpanDrawn_store _ s

theorem retintLineRedrawn_store (s : State) : (retintLineRedrawn s).store = s.store := by
  cases h : runningRetint s with
  | none => rw [retintLineRedrawn_none h]
  | some x =>
    obtain ⟨o, ho, he⟩ := retintLineRedrawn_some h
    rw [he]
    split <;> exact ho.store

theorem idle_store (s : State) : (idle s).store = s.store := by
  obtain ⟨d, hd, ht, -⟩ := idle_work s
  rw [ht]
  exact hd.store

/-! ### Scans, lanes and timers -/

theorem panelFrameBoundary_store (s : State) : (panelFrameBoundary s).store = s.store := by
  unfold panelFrameBoundary
  split <;> rfl

theorem laneFrame_store (lane : Nat) (s : State) : (laneFrame lane s).store = s.store := by
  unfold laneFrame
  split
  · rfl
  · split <;> rfl

theorem visitLane_store (s : State) (lane : Nat) : (visitLane s lane).store = s.store := by
  unfold visitLane
  split
  · split <;> rfl
  · rfl

theorem dispatchScan_store (s : State) : (dispatchScan s).store = s.store := by
  unfold dispatchScan
  split
  · refine List.foldlRecOn (motive := fun u : State => u.store = s.store) _ visitLane ?_ fun u hu lane _ =>
      (visitLane_store u lane).trans hu
    rfl
  · rfl

theorem updateCompletion_store (lane : Nat) (s : State) : (updateCompletion lane s).store = s.store := by
  unfold updateCompletion
  split
  · rfl
  · split <;> rfl

theorem deghostExpiry_store (s : State) : (deghostExpiry s).store = s.store := by
  unfold deghostExpiry
  split <;> rfl

theorem temperatureStale_store (s : State) : (temperatureStale s).store = s.store := by
  unfold temperatureStale
  split <;> rfl

/-! ### Requests of the other owners -/

/-- The requests that the Font Store takes and that may change it (Table 9-3). -/
def changesStore : Request → Bool
  | .fontBegin _ _ | .glyphPut _ _ _ | .fontEnd _ | .fontDrop _ | .fontLock _ | .fontCheck _ | .protectRaise _ | .storeWipe =>
    true
  | _ => false

theorem takeFlowAppend_store (slot : Nat) (l : List RunRecord) (s : State) : (takeFlowAppend slot l s).1.store = s.store := by
  unfold takeFlowAppend
  iterate 3 (split; · rfl)
  rfl

theorem takeFlowClear_store (slot : Nat) (s : State) : (takeFlowClear slot s).1.store = s.store := by
  unfold takeFlowClear
  simp only
  iterate 2 (split; · rfl)
  rfl

theorem takeStyleDefine_store (id : Nat) (f : StyleFields) (s : State) : (takeStyleDefine id f s).1.store = s.store := by
  unfold takeStyleDefine
  iterate 2 (split; · rfl)
  rfl

theorem takeSet_store (id value : Nat) (s : State) : (takeSet id value s).1.store = s.store := by
  unfold takeSet
  iterate 3 (split; · rfl)
  rfl

theorem takeActivate_store (s : State) : (takeActivate s).1.store = s.store := by
  unfold takeActivate
  split
  · rfl
  · obtain ⟨u, lanes, ⟨-, rfl⟩ | ⟨-, rfl⟩, he⟩ := activateStandby_cases s <;> rw [he] <;> rfl

theorem takeStandby_store (s : State) : (takeStandby s).1.store = s.store := by
  unfold takeStandby
  iterate 2 (split; · rfl)
  rfl

theorem takeCompose_store (f : ComposeFields) (s : State) : (takeCompose f s).1.store = s.store := by
  unfold takeCompose
  iterate 5 (split; · rfl)
  rfl

theorem takeComposeAbort_store (tag : Nat) (s : State) : (takeComposeAbort tag s).1.store = s.store := by
  unfold takeComposeAbort
  repeat' split
  all_goals rfl

theorem takeFrameRelease_store (slot gen : Nat) (s : State) : (takeFrameRelease slot gen s).1.store = s.store := by
  unfold takeFrameRelease
  split <;> rfl

theorem takeNoteAdd_store (f : NoteFields) (s : State) : (takeNoteAdd f s).1.store = s.store := by
  unfold takeNoteAdd
  repeat' split
  all_goals rfl

theorem takeNoteChange_store (id : Nat) (c : NoteChanges) (s : State) : (takeNoteChange id c s).1.store = s.store := by
  unfold takeNoteChange
  simp only
  repeat' split
  all_goals rfl

theorem takeNoteRemove_store (id : Nat) (s : State) : (takeNoteRemove id s).1.store = s.store := by
  unfold takeNoteRemove
  repeat' split
  all_goals rfl

theorem takeCommit_store (mode cls : Nat) (rect : Option TileRect) (s : State) :
    (takeCommit mode cls rect s).1.store = s.store := by
  unfold takeCommit
  repeat' split
  all_goals rfl

theorem takeRefresh_store (mode cls : Nat) (rect : Option TileRect) (s : State) :
    (takeRefresh mode cls rect s).1.store = s.store := by
  unfold takeRefresh
  repeat' split
  all_goals rfl

theorem ownerState_store {r : Request} (h : changesStore r = false) (s : State) : (ownerState r s).store = s.store := by
  cases r with
  | fontBegin | glyphPut | fontEnd | fontDrop | fontLock | fontCheck | protectRaise | storeWipe => cases h
  | set id v => exact takeSet_store id v s
  | activate => exact takeActivate_store s
  | standby => exact takeStandby_store s
  | flowAppend slot l => exact takeFlowAppend_store slot l s
  | flowClear slot => exact takeFlowClear_store slot s
  | styleDefine id f => exact takeStyleDefine_store id f s
  | compose f => exact takeCompose_store f s
  | composeAbort t => exact takeComposeAbort_store t s
  | frameRelease slot gen => exact takeFrameRelease_store slot gen s
  | noteAdd n => exact takeNoteAdd_store n s
  | noteChange id c => exact takeNoteChange_store id c s
  | noteRemove id => exact takeNoteRemove_store id s
  | commit m c r => exact takeCommit_store m c r s
  | refresh m c r => exact takeRefresh_store m c r s
  | _ => rfl

/-! ### The power state -/

theorem takeActivate_started {s : State} (h : s.settings.power ≠ .starting) :
    (takeActivate s).1.settings.power ≠ .starting := by
  unfold takeActivate
  split
  · exact h
  · obtain ⟨u, lanes, -, he⟩ := activateStandby_cases s
    rw [he]
    exact (by decide : Power.active ≠ .starting)

theorem takeStandby_started {s : State} (h : s.settings.power ≠ .starting) :
    (takeStandby s).1.settings.power ≠ .starting := by
  unfold takeStandby
  iterate 2 (split; · exact h)
  exact (by decide : Power.standby ≠ .starting)

/-- No request leads back to STARTING (R168). -/
theorem ownerState_started (r : Request) {s : State} (h : s.settings.power ≠ .starting) :
    (ownerState r s).settings.power ≠ .starting := by
  cases hc : changesPower r with
  | false => rwa [(ownerState_quiet hc s).geometry.power]
  | true =>
    cases r with
    | activate => exact takeActivate_started h
    | standby => exact takeStandby_started h
    | _ => cases hc

end Sys2Proof.Machine
end

section
/-! SUPPORT. How the font table, the write queue, the store operation and the banks fit together, said of a Font Store alone;
what a change of one slot must keep of it; and which fonts a change leaves as they are below the protection boundary
(spec/02 2.1, 2.4, R38). -/

namespace Sys2Proof.Machine

/-! ### The fit of a Font Store -/

/-- `StoreWf` outside STARTING. -/
structure StoreFit (st : FontStore) : Prop where
  slots : st.slots.length = 16
  fonts : st.nv.fonts.length = 16
  unfinished : ∀ i f, nvFont st i = some f → f.endMark = false ∨ f.dropped = true → st.nv.boundary ≤ f.header.firstBank
  slot : ∀ i, i < 16 → SlotWf st i
  entries : ∀ e ∈ st.writeQueue, (fontSlot st (entrySlot e)).state = .loading ∨ droppingSlot st.op = some (entrySlot e)
  headers : ∀ i h, .header i h ∈ st.writeQueue →
    st.nv.boundary ≤ h.firstBank ∧ ((fontSlot st i).state = .loading → (fontSlot st i).header = some h)
  op : OpWf st

/-- `StoreWf` in STARTING, before the scan. -/
structure StoreUnscanned (st : FontStore) : Prop where
  slots : st.slots.length = 16
  fonts : st.nv.fonts.length = 16
  queue : st.writeQueue = []
  op : st.op = none
  unfinished : ∀ i f, nvFont st i = some f → f.endMark = false ∨ f.dropped = true → st.nv.boundary ≤ f.header.firstBank

theorem StoreWf.fit {s : State} (h : StoreWf s) (hp : s.settings.power ≠ .starting) : StoreFit s.store := by
  obtain ⟨slots, fonts, -, unfinished, slot, entries, headers, op⟩ := h
  exact ⟨slots, fonts, unfinished, slot hp, entries, headers, op⟩

theorem StoreWf.unscanned {s : State} (h : StoreWf s) (hp : s.settings.power = .starting) : StoreUnscanned s.store := by
  obtain ⟨slots, fonts, rest, unfinished, -⟩ := h
  exact ⟨slots, fonts, (rest hp).1, (rest hp).2, unfinished⟩

theorem StoreFit.storeWf {s : State} (h : StoreFit s.store) (hp : s.settings.power ≠ .starting) : StoreWf s :=
  ⟨h.slots, h.fonts, fun hs => absurd hs hp, h.unfinished, fun _ => h.slot, h.entries, h.headers, h.op⟩

theorem StoreUnscanned.storeWf {s : State} (h : StoreUnscanned s.store) (hp : s.settings.power = .starting) :
    StoreWf s := by
  refine ⟨h.slots, h.fonts, fun _ => ⟨h.queue, h.op⟩, h.unfinished, fun hs => absurd hp hs, ?_, ?_, ?_⟩
  · rw [h.queue]
    intro e he
    cases he
  · rw [h.queue]
    intro i hd he
    cases he
  · rw [OpWf, h.op]
    trivial

/-- A store operation or a queued entry is found outside STARTING only (R40). -/
theorem StoreWf.started_of_op {s : State} (h : StoreWf s) {op : StoreOp} (ho : s.store.op = some op) :
    s.settings.power ≠ .starting := by
  intro hp
  rw [(h.unscanned hp).op] at ho
  cases ho

theorem StoreWf.started_of_entry {s : State} (h : StoreWf s) {e : WriteEntry} {rest : List WriteEntry}
    (hq : s.store.writeQueue = e :: rest) : s.settings.power ≠ .starting := by
  intro hp
  rw [(h.unscanned hp).queue] at hq
  cases hq

/-- `StoreWf` reads four parts of the store, and of the power state whether it is STARTING. -/
theorem StoreWf.of_eq {s t : State} (h : StoreWf s) (hs : t.store.slots = s.store.slots)
    (hq : t.store.writeQueue = s.store.writeQueue) (ho : t.store.op = s.store.op) (hn : t.store.nv = s.store.nv)
    (hp : t.settings.power = .starting ↔ s.settings.power = .starting) : StoreWf t := by
  simpa only [StoreWf, SlotWf, OpWf, fontSlot, nvFont, hs, hq, ho, hn, ne_eq, hp] using h

/-! ### Lookups after an update -/

theorem fontSlot_set {st t : FontStore} {k : Nat} {v : FontSlot} (h : t.slots = st.slots.set k v) (hk : k < st.slots.length)
    (i : Nat) : fontSlot t i = if i = k then v else fontSlot st i := by
  simp only [fontSlot, h, List.getD_eq_getElem?_getD, List.getElem?_set]
  by_cases hi : k = i
  · subst hi
    simp [hk]
  · rw [if_neg hi, if_neg (Ne.symm hi)]

theorem nvFont_set {st t : FontStore} {k : Nat} {o : Option NvFont} (h : t.nv.fonts = st.nv.fonts.set k o)
    (hk : k < st.nv.fonts.length) (i : Nat) : nvFont t i = if i = k then o else nvFont st i := by
  simp only [nvFont, h, List.getD_eq_getElem?_getD, List.getElem?_set]
  by_cases hi : k = i
  · subst hi
    simp [hk]
  · rw [if_neg hi, if_neg (Ne.symm hi)]

theorem nvFont_of_nv {st t : FontStore} (h : t.nv = st.nv) (i : Nat) : nvFont t i = nvFont st i := by rw [nvFont, nvFont, h]

/-- A slot that is not vacant lies in the font table. -/
theorem slot_lt_of_ne_vacant {st : FontStore} {i : Nat} (h : fontSlot st i ≠ FontSlot.vacant) : i < st.slots.length := by
  by_contra hn
  apply h
  rw [fontSlot, List.getD_eq_getElem?_getD, List.getElem?_eq_none (Nat.not_lt.mp hn)]
  rfl

theorem StoreFit.lt_of_state {st : FontStore} (h : StoreFit st) {i : Nat} (hs : (fontSlot st i).state ≠ .empty) : i < 16 :=
  h.slots ▸ slot_lt_of_ne_vacant fun hv => hs (by rw [hv]; rfl)

theorem StoreFit.lt_of_busy {st : FontStore} (h : StoreFit st) {i : Nat} (hb : (fontSlot st i).busy = true) : i < 16 :=
  h.slots ▸ slot_lt_of_ne_vacant fun hv => by rw [hv] at hb; cases hb

theorem StoreFit.lt_of_font {st : FontStore} (h : StoreFit st) {i : Nat} {f : NvFont} (hf : nvFont st i = some f) :
    i < 16 := by
  rw [← h.fonts]
  by_contra hn
  rw [nvFont, List.getD_eq_getElem?_getD, List.getElem?_eq_none (Nat.not_lt.mp hn)] at hf
  cases hf

/-! ### A slot by its state -/

theorem StoreFit.empty {st : FontStore} (h : StoreFit st) {i : Nat} (hi : i < 16) (hs : (fontSlot st i).state = .empty) :
    droppingSlot st.op = some i ∨ st.op = some .storeWipe
      ∨ (nvFont st i = none ∧ ∀ e ∈ st.writeQueue, entrySlot e ≠ i) := by
  have := h.slot i hi
  rwa [SlotWf, hs] at this

/-- What the banks and the queue hold of a LOADING font (R28, R29). -/
structure Loading (st : FontStore) (i : Nat) (h : FontHeader) : Prop where
  header : (fontSlot st i).header = some h
  above : st.nv.boundary ≤ h.firstBank
  raise : ∀ v, st.op = some (.protectRaise v) → v ≤ h.firstBank
  font : ∀ f, nvFont st i = some f → f.header = h ∧ f.endMark = false ∧ f.dropped = false
  entry : nvFont st i = none → .header i h ∈ st.writeQueue

theorem slotWf_of_loading {st : FontStore} {i : Nat} (hs : (fontSlot st i).state = .loading) {h : FontHeader}
    (hl : Loading st i h) : SlotWf st i := by
  rw [SlotWf, hs]
  exact ⟨h, hl.header, hl.above, hl.raise, hl.font, hl.entry⟩

theorem StoreFit.loading {st : FontStore} (h : StoreFit st) {i : Nat} (hs : (fontSlot st i).state = .loading) :
    ∃ hd, Loading st i hd := by
  have := h.slot i (h.lt_of_state (by rw [hs]; decide))
  rw [SlotWf, hs] at this
  obtain ⟨hd, h1, h2, h3, h4, h5⟩ := this
  exact ⟨hd, h1, h2, h3, h4, h5⟩

/-- What the banks and the queue hold of a READY or DAMAGED font (R32, R40). -/
structure Complete (st : FontStore) (i : Nat) (f : NvFont) : Prop where
  font : nvFont st i = some f
  header : (fontSlot st i).header = some f.header
  endMark : f.endMark = true
  dropped : f.dropped = false
  noEntry : ∀ e ∈ st.writeQueue, entrySlot e ≠ i

theorem slotWf_of_complete {st : FontStore} {i : Nat} (hs : (fontSlot st i).state = .ready ∨ (fontSlot st i).state = .damaged)
    {f : NvFont} (hc : Complete st i f) : SlotWf st i := by
  rcases hs with hs | hs <;> rw [SlotWf, hs] <;>
    exact ⟨⟨f, hc.font, hc.header, hc.endMark, hc.dropped⟩, hc.noEntry⟩

theorem StoreFit.complete {st : FontStore} (h : StoreFit st) {i : Nat}
    (hs : (fontSlot st i).state = .ready ∨ (fontSlot st i).state = .damaged) : ∃ f, Complete st i f := by
  have hw := h.slot i (h.lt_of_state (by rcases hs with hs | hs <;> rw [hs] <;> decide))
  rcases hs with hs | hs <;> rw [SlotWf, hs] at hw <;> obtain ⟨⟨f, h1, h2, h3, h4⟩, h5⟩ := hw <;>
    exact ⟨f, h1, h2, h3, h4, h5⟩

/-- A font without an end mark, or dropped, lies above the boundary (R23, R38). -/
theorem StoreFit.above_or_finished {st : FontStore} (h : StoreFit st) {i : Nat} {f : NvFont} (hf : nvFont st i = some f) :
    st.nv.boundary ≤ f.header.firstBank ∨ f.endMark = true ∧ f.dropped = false := by
  by_cases hu : f.endMark = false ∨ f.dropped = true
  · exact .inl (h.unfinished i f hf hu)
  · exact .inr (by simpa using hu)

theorem state_cases (x : FontState) : x = .empty ∨ x = .loading ∨ (x = .ready ∨ x = .damaged) := by
  cases x <;> simp

/-- A FONT_DROP in progress erases a slot that is EMPTY and busy, and a font that lies above the boundary (R34). -/
theorem StoreFit.dropping {st : FontStore} (h : StoreFit st) {i : Nat} (hd : droppingSlot st.op = some i) :
    (fontSlot st i).state = .empty ∧ (fontSlot st i).busy = true
      ∧ ∀ f, nvFont st i = some f → st.nv.boundary ≤ f.header.firstBank := by
  obtain ⟨a, b, ho⟩ := (droppingSlot_eq_some st.op i).mp hd
  have := h.op
  rwa [OpWf, ho] at this

/-! ### Fonts below the boundary (R38) -/

/-- The boundary does not fall, the fonts that reach below it stay as they are, and no other font comes to reach below it. -/
structure BelowKept (st t : FontStore) : Prop where
  boundary : st.nv.boundary ≤ t.nv.boundary
  fonts : ∀ i f, f.header.firstBank < st.nv.boundary → (nvFont t i = some f ↔ nvFont st i = some f)

theorem belowKept_of_nv {st t : FontStore} (h : t.nv = st.nv) : BelowKept st t :=
  ⟨by rw [h], fun i f _ => by rw [nvFont_of_nv h]⟩

theorem BelowKept.trans {a b c : FontStore} (h : BelowKept a b) (k : BelowKept b c) : BelowKept a c :=
  ⟨h.boundary.trans k.boundary,
    fun i f hf => (k.fonts i f (Nat.lt_of_lt_of_le hf h.boundary)).trans (h.fonts i f hf)⟩

/-- One slot's font changes, and it lies above the boundary before and after. -/
theorem belowKept_of_set {st t : FontStore} {k : Nat} (hb : t.nv.boundary = st.nv.boundary)
    (other : ∀ i, i ≠ k → nvFont t i = nvFont st i) (before : ∀ f, nvFont st k = some f → st.nv.boundary ≤ f.header.firstBank)
    (after : ∀ f, nvFont t k = some f → st.nv.boundary ≤ f.header.firstBank) : BelowKept st t := by
  refine ⟨Nat.le_of_eq hb.symm, fun i f hf => ?_⟩
  by_cases hi : i = k
  · subst hi
    exact ⟨fun h => absurd (after f h) (Nat.not_le.mpr hf), fun h => absurd (before f h) (Nat.not_le.mpr hf)⟩
  · rw [other i hi]

/-- A font that no wipe is about to erase lies above the boundary while it is LOADING, or is being dropped, or its slot is
not protected. -/
theorem StoreFit.above {st : FontStore} (h : StoreFit st) {i : Nat}
    (hs : (fontSlot st i).state = .loading ∨ droppingSlot st.op = some i
      ∨ (fontSlot st i).state ≠ .empty ∧ st.nv.boundary ≤ firstBankOf (fontSlot st i)) :
    ∀ f, nvFont st i = some f → st.nv.boundary ≤ f.header.firstBank := by
  have loading : (fontSlot st i).state = .loading → ∀ f, nvFont st i = some f → st.nv.boundary ≤ f.header.firstBank := by
    intro hl f hf
    obtain ⟨hd, hl⟩ := h.loading hl
    rw [(hl.font f hf).1]
    exact hl.above
  rcases hs with hs | hs | ⟨hne, hb⟩
  · exact loading hs
  · exact (h.dropping hs).2.2
  · rcases state_cases (fontSlot st i).state with he | hl | hr
    · exact absurd he hne
    · exact loading hl
    · intro f hf
      obtain ⟨g, hc⟩ := h.complete hr
      rw [hc.font] at hf
      cases hf
      rwa [firstBankOf, hc.header] at hb

/-! ### A change of one slot -/

/-- A slot, its font and its entries are as they were. -/
structure SlotKept (st t : FontStore) (i : Nat) : Prop where
  slot : fontSlot t i = fontSlot st i
  font : nvFont t i = nvFont st i
  entries : ∀ e, entrySlot e = i → (e ∈ t.writeQueue ↔ e ∈ st.writeQueue)

/-- What a LOADING font's banks must lie above (R28, R38): the boundary, and the value that a PROTECT_RAISE asks for. -/
def Clear (st : FontStore) (h : FontHeader) : Prop :=
  st.nv.boundary ≤ h.firstBank ∧ ∀ v, st.op = some (.protectRaise v) → v ≤ h.firstBank

/-- What SlotWf reads of a slot. -/
theorem slotWf_of_eq {st t : FontStore} {i : Nat} (h : SlotWf st i) (hs : (fontSlot t i).state = (fontSlot st i).state)
    (hh : (fontSlot t i).header = (fontSlot st i).header) (hf : nvFont t i = nvFont st i)
    (he : ∀ e, entrySlot e = i → (e ∈ t.writeQueue ↔ e ∈ st.writeQueue))
    (hd : droppingSlot st.op = some i → droppingSlot t.op = some i) (hw : st.op = some .storeWipe → t.op = some .storeWipe)
    (hc : ∀ hd, (fontSlot st i).state = .loading → (fontSlot st i).header = some hd → Clear st hd → Clear t hd) :
    SlotWf t i := by
  have noEntry : (∀ e ∈ st.writeQueue, entrySlot e ≠ i) → ∀ e ∈ t.writeQueue, entrySlot e ≠ i :=
    fun hn e hm hi => hn e ((he e hi).mp hm) hi
  unfold SlotWf at h ⊢
  rw [hs, hh, hf]
  split at h
  · exact h.imp hd (Or.imp hw (And.imp_right noEntry))
  · next hl =>
    obtain ⟨hh, h1, h2, h3, h4, h5⟩ := h
    obtain ⟨c1, c2⟩ := hc hh hl h1 ⟨h2, h3⟩
    exact ⟨hh, h1, c1, c2, h4, fun hn => (he _ rfl).mpr (h5 hn)⟩
  · exact h.imp_right noEntry

/-- The store after a change of one slot `k` fits, when the other slots are as they were and slot `k` fits. -/
theorem StoreFit.of_slot {st t : FontStore} (h : StoreFit st) (k : Nat) (hs : t.slots.length = 16)
    (hf : t.nv.fonts.length = 16) (hb : t.nv.boundary = st.nv.boundary) (other : ∀ i, i ≠ k → SlotKept st t i)
    (drops : ∀ i, i ≠ k → droppingSlot st.op = some i → droppingSlot t.op = some i)
    (hw : st.op = some .storeWipe → t.op = some .storeWipe)
    (hr : ∀ v, t.op = some (.protectRaise v) → st.op = some (.protectRaise v)) (slot : k < 16 → SlotWf t k)
    (unfinished : ∀ f, nvFont t k = some f → st.nv.boundary ≤ f.header.firstBank ∨ f.endMark = true ∧ f.dropped = false)
    (entries : ∀ e ∈ t.writeQueue, entrySlot e = k → (fontSlot t k).state = .loading ∨ droppingSlot t.op = some k)
    (headers : ∀ hd, .header k hd ∈ t.writeQueue →
      st.nv.boundary ≤ hd.firstBank ∧ ((fontSlot t k).state = .loading → (fontSlot t k).header = some hd))
    (op : OpWf t) : StoreFit t := by
  refine ⟨hs, hf, fun i f hif hu => ?_, fun i hi => ?_, fun e he => ?_, fun i hd he => ?_, op⟩
  · rw [hb]
    by_cases hik : i = k
    · subst hik
      rcases unfinished f hif with ha | ⟨h1, h2⟩
      · exact ha
      · rw [h1, h2] at hu
        simp at hu
    · rw [(other i hik).font] at hif
      exact h.unfinished i f hif hu
  · by_cases hik : i = k
    · subst hik
      exact slot hi
    · have kept := other i hik
      refine slotWf_of_eq (h.slot i hi) (by rw [kept.slot]) (by rw [kept.slot]) kept.font kept.entries (drops i hik) hw
        fun hd _ _ hc => ⟨?_, fun v hv => hc.2 v (hr v hv)⟩
      rw [hb]
      exact hc.1
  · by_cases hik : entrySlot e = k
    · rw [hik]
      exact entries e he hik
    · rw [(other _ hik).slot]
      exact (h.entries e (((other _ hik).entries e rfl).mp he)).imp_right (drops _ hik)
  · rw [hb]
    by_cases hik : i = k
    · subst hik
      exact headers hd he
    · rw [(other i hik).slot]
      exact h.headers i hd (((other i hik).entries _ rfl).mp he)

/-! ### Operations that go on -/

/-- An operation in progress goes on beside work on a slot that is not busy; a new entry of that slot may join the queue. -/
theorem OpWf.beside {st t : FontStore} (h : OpWf st) {k : Nat} (hk : (fontSlot st k).busy = false)
    (ho : t.op = st.op) (hb : t.nv.boundary = st.nv.boundary) (hw : st.op ≠ some .storeWipe)
    (other : ∀ i, i ≠ k → SlotKept st t i)
    (hq : ∀ n, ∀ e ∈ t.writeQueue.drop n, e ∈ st.writeQueue.drop n ∨ entrySlot e = k) : OpWf t := by
  have apart : ∀ {i}, (fontSlot st i).busy = true → i ≠ k := by
    rintro i hi rfl
    rw [hk] at hi
    cases hi
  unfold OpWf at h ⊢
  rw [ho]
  split at h
  · trivial
  · obtain ⟨h1, h2, h3⟩ := h
    refine ⟨?_, ?_, fun e he => ?_⟩
    · rw [(other _ (apart h2)).slot, h1]
    · rw [(other _ (apart h2)).slot, h2]
    · rcases hq _ e he with he | he
      · exact h3 e he
      · exact he ▸ (apart h2).symm
  · obtain ⟨h1, h2, h3⟩ := h
    have kept := other _ (apart h2)
    rw [kept.slot, kept.font, hb]
    exact ⟨h1, h2, h3⟩
  · obtain ⟨h1, h2, h3⟩ := h
    rw [(other _ (apart h2)).slot, hb]
    exact ⟨h1, h2, h3⟩
  · obtain ⟨h1, h2⟩ := h
    rw [(other _ (apart h2)).slot]
    exact ⟨h1, h2⟩
  · rwa [hb]
  · next hs => exact absurd hs hw

/-- A slot that is not busy is in no operation (R27, R34, R39). -/
theorem StoreFit.not_wiping {st : FontStore} (h : StoreFit st) {k : Nat} (hk : k < 16) (hb : (fontSlot st k).busy = false) :
    st.op ≠ some .storeWipe := by
  intro ho
  have hop := h.op
  rw [OpWf, ho] at hop
  have hlt : k < st.slots.length := by rw [h.slots]; exact hk
  have busy := (hop.2.2 (fontSlot st k) (by
    rw [fontSlot, List.getD_eq_getElem?_getD, List.getElem?_eq_getElem hlt]
    exact List.getElem_mem hlt)).2
  rw [hb] at busy
  cases busy

theorem StoreFit.not_dropping {st : FontStore} (h : StoreFit st) {k : Nat} (hb : (fontSlot st k).busy = false) :
    droppingSlot st.op ≠ some k := by
  intro hd
  rw [(h.dropping hd).2.1] at hb
  cases hb

end Sys2Proof.Machine
end

section
/-! SUPPORT. What the requests of the Font Store do to a store that fits: it fits afterwards, and the fonts below the protection
boundary are as they were (R27 to R39). -/

namespace Sys2Proof.Machine

/-- The store fits, and nothing below the boundary changed. -/
structure FitStep (st t : FontStore) : Prop where
  fit : StoreFit t
  below : BelowKept st t

theorem StoreFit.refl_step {st : FontStore} (h : StoreFit st) : FitStep st st := ⟨h, belowKept_of_nv rfl⟩

/-! ### FONT_BEGIN, GLYPH_PUT (R28, R30) -/

/-- An entry of another slot at the tail of the queue is no entry of slot `i`. -/
theorem mem_append_entry {q : List WriteEntry} {x e : WriteEntry} {i : Nat} (hx : entrySlot x ≠ i) (he : entrySlot e = i) :
    e ∈ q ++ [x] ↔ e ∈ q := by
  rw [List.mem_append, List.mem_singleton]
  refine ⟨fun h => h.resolve_right ?_, .inl⟩
  rintro rfl
  exact hx he

theorem mem_drop_append_entry {q : List WriteEntry} {x e : WriteEntry} {n : Nat} (h : e ∈ (q ++ [x]).drop n) :
    e ∈ q.drop n ∨ e = x := by
  rw [List.drop_append, List.mem_append] at h
  exact h.imp_right fun h => List.mem_singleton.mp (List.mem_of_mem_drop h)

/-- A slot that is EMPTY and not busy holds no font and no entry. -/
theorem StoreFit.vacant {st : FontStore} (h : StoreFit st) {k : Nat} (hk : k < 16) (hb : (fontSlot st k).busy = false)
    (he : (fontSlot st k).state = .empty) : nvFont st k = none ∧ ∀ e ∈ st.writeQueue, entrySlot e ≠ k :=
  ((h.empty hk he).resolve_left (h.not_dropping hb)).resolve_left (h.not_wiping hk hb)

theorem clear_of_not_raiseAbove {st : FontStore} {hd : FontHeader} (hn : st.nv.boundary ≤ hd.firstBank)
    (hr : raiseAbove st hd.firstBank = false) : Clear st hd := by
  refine ⟨hn, fun v hv => ?_⟩
  rw [raiseAbove, hv] at hr
  exact Nat.not_lt.mp (of_decide_eq_false hr)

/-- FONT_DROP removes entries of its own slot alone (R34). -/
theorem mem_dropUnstarted {k : Nat} {q : List WriteEntry} {e : WriteEntry} :
    (e ∈ dropUnstarted k q → e ∈ q) ∧ (e ∈ q → entrySlot e ≠ k → e ∈ dropUnstarted k q) := by
  cases q with
  | nil => exact ⟨id, fun h _ => h⟩
  | cons x q =>
    simp only [dropUnstarted, List.mem_cons, List.mem_filter, bne_iff_ne]
    exact ⟨fun h => h.imp_right And.left, fun h hne => h.imp_right fun h => ⟨h, hne⟩⟩

section Requests

variable {st t : FontStore} (h : StoreFit st) {k : Nat}

include h

theorem StoreFit.fontBegin (hk : k < 16) (hb : (fontSlot st k).busy = false) (he : (fontSlot st k).state = .empty)
    {hd : FontHeader} (hc : Clear st hd) (hs : t.slots = st.slots.set k ⟨.loading, false, false, some hd, 0, 0⟩)
    (hq : t.writeQueue = st.writeQueue ++ [.header k hd]) (ho : t.op = st.op) (hn : t.nv = st.nv) : FitStep st t := by
  obtain ⟨noFont, noEntry⟩ := h.vacant hk hb he
  have slots := fontSlot_set hs (h.slots ▸ hk)
  have here := (slots k).trans (if_pos rfl)
  have font := nvFont_of_nv hn
  have bare : ∀ f, nvFont t k ≠ some f := fun f hf => by rw [font, noFont] at hf; cases hf
  have other : ∀ i, i ≠ k → SlotKept st t i := fun i hi =>
    ⟨(slots i).trans (if_neg hi), font i, fun e hei => hq ▸ mem_append_entry hi.symm hei⟩
  have loading : Loading t k hd := by
    refine ⟨by rw [here], by rw [hn]; exact hc.1, fun v hv => hc.2 v (ho ▸ hv), fun f hf => absurd hf (bare f), fun _ => ?_⟩
    rw [hq]
    exact List.mem_append_right _ (List.mem_singleton_self _)
  refine ⟨h.of_slot k (by rw [hs, List.length_set, h.slots]) (by rw [hn, h.fonts]) (by rw [hn]) other
    (fun _ _ => by rw [ho]; exact id) (by rw [ho]; exact id) (fun v => by rw [ho]; exact id)
    (fun _ => slotWf_of_loading (by rw [here]) loading)
    (fun f hf => absurd hf (bare f)) (fun _ _ _ => .inl (by rw [here])) (fun g hg => ?_) ?_, belowKept_of_nv hn⟩
  · rw [hq] at hg
    rcases List.mem_append.mp hg with hg | hg
    · exact absurd rfl (noEntry _ hg)
    · cases List.mem_singleton.mp hg
      exact ⟨hc.1, fun _ => loading.header⟩
  · refine h.op.beside hb ho (by rw [hn]) (h.not_wiping hk hb) other fun n e hen => ?_
    rw [hq] at hen
    exact (mem_drop_append_entry hen).imp_right fun hx => by rw [hx]; rfl

/-- Work on a LOADING slot that is not busy: its cursor and used bytes change, and an entry of glyphs may join the queue. -/
theorem StoreFit.glyphPut (hb : (fontSlot st k).busy = false) (hl : (fontSlot st k).state = .loading) {cursor used : Nat}
    (hs : t.slots = st.slots.set k { fontSlot st k with cursor := cursor, used := used })
    (hq : t.writeQueue = st.writeQueue ∨ ∃ recs, t.writeQueue = st.writeQueue ++ [.glyphs k recs]) (ho : t.op = st.op)
    (hn : t.nv = st.nv) : FitStep st t := by
  obtain ⟨hd, was⟩ := h.loading hl
  have hk := h.lt_of_state (by rw [hl]; decide)
  have slots := fontSlot_set hs (h.slots ▸ hk)
  have here := (slots k).trans (if_pos rfl)
  have font := nvFont_of_nv hn
  have stays : ∀ e ∈ st.writeQueue, e ∈ t.writeQueue := fun e he => by
    rcases hq with hq | ⟨recs, hq⟩ <;> rw [hq]
    · exact he
    · exact List.mem_append_left _ he
  have joins : ∀ e ∈ t.writeQueue, e ∈ st.writeQueue ∨ ∃ recs, e = .glyphs k recs := fun e he => by
    rcases hq with hq | ⟨recs, hq⟩ <;> rw [hq] at he
    · exact .inl he
    · exact (List.mem_append.mp he).imp_right fun he => ⟨recs, List.mem_singleton.mp he⟩
  have other : ∀ i, i ≠ k → SlotKept st t i := fun i hi =>
    ⟨(slots i).trans (if_neg hi), font i, fun e hei => ⟨fun he => (joins e he).resolve_right
      (by rintro ⟨recs, rfl⟩; exact hi hei.symm), stays e⟩⟩
  have loading : Loading t k hd :=
    ⟨by rw [here]; exact was.header, by rw [hn]; exact was.above, fun v hv => was.raise v (ho ▸ hv),
      fun f hf => was.font f (font k ▸ hf), fun hf => stays _ (was.entry (font k ▸ hf))⟩
  refine ⟨h.of_slot k (by rw [hs, List.length_set, h.slots]) (by rw [hn, h.fonts]) (by rw [hn]) other
    (fun _ _ => by rw [ho]; exact id) (by rw [ho]; exact id) (fun v => by rw [ho]; exact id)
    (fun _ => slotWf_of_loading (by rw [here]; exact hl) loading)
    (fun f hf => h.above_or_finished (font k ▸ hf)) (fun _ _ _ => .inl (by rw [here]; exact hl)) (fun g hg => ?_) ?_,
    belowKept_of_nv hn⟩
  · rcases joins _ hg with hg | ⟨recs, hg⟩
    · obtain ⟨above, same⟩ := h.headers k g hg
      exact ⟨above, fun _ => by rw [here]; exact same hl⟩
    · cases hg
  · refine h.op.beside hb ho (by rw [hn]) (h.not_wiping hk hb) other fun n e hen => ?_
    rcases hq with hq | ⟨recs, hq⟩ <;> rw [hq] at hen
    · exact .inl hen
    · exact (mem_drop_append_entry hen).imp_right fun hx => by rw [hx]; rfl

/-! ### Operations that begin (R27, R32, R34, R35, R37) -/

/-- FONT_END, FONT_LOCK or FONT_CHECK begins: the slot becomes busy. -/
theorem StoreFit.begin (hk : k < 16) (hi : st.op = none) {op : StoreOp}
    (hs : t.slots = st.slots.set k { fontSlot st k with busy := true }) (hq : t.writeQueue = st.writeQueue)
    (ho : t.op = some op) (hn : t.nv = st.nv) (hr : ∀ v, op ≠ .protectRaise v) (hw : OpWf t) : FitStep st t := by
  have slots := fontSlot_set hs (h.slots ▸ hk)
  have here := (slots k).trans (if_pos rfl)
  have state : (fontSlot t k).state = (fontSlot st k).state := by rw [here]
  have header : (fontSlot t k).header = (fontSlot st k).header := by rw [here]
  have font := nvFont_of_nv hn
  have entries : ∀ e, e ∈ t.writeQueue ↔ e ∈ st.writeQueue := fun e => by rw [hq]
  have noDrop : ∀ i, droppingSlot st.op ≠ some i := fun i hd => by rw [hi] at hd; cases hd
  have noWipe : st.op ≠ some .storeWipe := by rw [hi]; exact nofun
  have noRaise : ∀ v, t.op ≠ some (.protectRaise v) := fun v hv => hr v (Option.some.inj (ho.symm.trans hv))
  refine ⟨h.of_slot k (by rw [hs, List.length_set, h.slots]) (by rw [hn, h.fonts]) (by rw [hn])
    (fun i hi => ⟨(slots i).trans (if_neg hi), font i, fun e _ => entries e⟩) (fun i _ hd => absurd hd (noDrop i))
    (fun hw => absurd hw noWipe) (fun v hv => absurd hv (noRaise v))
    (fun hk => slotWf_of_eq (h.slot k hk) state header (font k) (fun e _ => entries e) (fun hd => absurd hd (noDrop k))
      (fun hw => absurd hw noWipe) fun hd _ _ hc => ⟨by rw [hn]; exact hc.1, fun v hv => absurd hv (noRaise v)⟩)
    (fun f hf => h.above_or_finished (font k ▸ hf)) (fun e he hek => ?_) (fun g hg => ?_) hw, belowKept_of_nv hn⟩
  · have := (h.entries e ((entries e).mp he)).resolve_right (noDrop _)
    rw [state, ← hek]
    exact .inl this
  · rw [state, header]
    exact h.headers k g ((entries _).mp hg)

/-- FONT_DROP begins: the slot is EMPTY and busy, and its entries that have not begun are gone (R34). -/
theorem StoreFit.fontDrop (hk : k < 16) (hi : st.op = none)
    (above : ∀ f, nvFont st k = some f → st.nv.boundary ≤ f.header.firstBank) {first last : Nat}
    (hs : t.slots = st.slots.set k { FontSlot.vacant with busy := true }) (hq : t.writeQueue = dropUnstarted k st.writeQueue)
    (ho : t.op = some (.fontDrop k first last)) (hn : t.nv = st.nv ∨ t.nv = markDropped st.nv k) : FitStep st t := by
  have slots := fontSlot_set hs (h.slots ▸ hk)
  have here := (slots k).trans (if_pos rfl)
  have state : (fontSlot t k).state = .empty := by rw [here]; rfl
  have dropping : droppingSlot t.op = some k := by rw [ho]; rfl
  have boundary : t.nv.boundary = st.nv.boundary := by
    rcases hn with hn | hn
    · rw [hn]
    · rw [hn]
      rfl
  have length : t.nv.fonts.length = 16 := by
    rcases hn with hn | hn <;> rw [hn]
    · exact h.fonts
    · exact List.length_set.trans h.fonts
  have marked : t.nv = markDropped st.nv k →
      ∀ i, nvFont t i = if i = k then (nvFont st k).map (fun f => { f with dropped := true }) else nvFont st i :=
    fun hn => nvFont_set (by rw [hn]; rfl) (h.fonts ▸ hk)
  have font : ∀ i, i ≠ k → nvFont t i = nvFont st i := fun i hi => by
    rcases hn with hn | hn
    · exact nvFont_of_nv hn i
    · rw [marked hn, if_neg hi]
  have erased : ∀ f, nvFont t k = some f → st.nv.boundary ≤ f.header.firstBank := fun f hf => by
    rcases hn with hn | hn
    · exact above f (nvFont_of_nv hn k ▸ hf)
    · rw [marked hn, if_pos rfl] at hf
      obtain ⟨g, hg, rfl⟩ := Option.map_eq_some_iff.mp hf
      exact above g hg
  have noDrop : ∀ i, droppingSlot st.op ≠ some i := fun i hd => by rw [hi] at hd; cases hd
  refine ⟨h.of_slot k (by rw [hs, List.length_set, h.slots]) length boundary
    (fun i hi => ⟨(slots i).trans (if_neg hi), font i hi, fun e he => ?_⟩) (fun i _ hd => absurd hd (noDrop i))
    (fun hw => by rw [hi] at hw; cases hw) (fun v hv => by rw [ho] at hv; cases hv)
    (fun _ => ?_) (fun f hf => .inl (erased f hf)) (fun _ _ _ => .inr dropping) (fun g hg => ?_) ?_,
    belowKept_of_set boundary font above erased⟩
  · rw [hq]
    exact ⟨mem_dropUnstarted.1, fun hm => mem_dropUnstarted.2 hm (by rw [he]; exact hi)⟩
  · rw [SlotWf, state]
    exact .inl dropping
  · rw [hq] at hg
    exact ⟨(h.headers k g (mem_dropUnstarted.1 hg)).1, fun hl => by rw [state] at hl; cases hl⟩
  · rw [OpWf, ho, boundary]
    exact ⟨state, by rw [here], erased⟩

/-- PROTECT_RAISE begins, with no LOADING font below its value (R38). -/
theorem StoreFit.protectRaise (hi : st.op = none) {value : Nat} (hv : st.nv.boundary ≤ value)
    (hl : loadingBelow st value = false) (hs : t.slots = st.slots) (hq : t.writeQueue = st.writeQueue)
    (ho : t.op = some (.protectRaise value)) (hn : t.nv = st.nv) : FitStep st t := by
  have slot : ∀ i, fontSlot t i = fontSlot st i := fun i => by rw [fontSlot, fontSlot, hs]
  have noDrop : ∀ i, droppingSlot st.op ≠ some i := fun i hd => by rw [hi] at hd; cases hd
  have clear : ∀ i hd, (fontSlot st i).state = .loading → (fontSlot st i).header = some hd → value ≤ hd.firstBank := by
    intro i hd hst hh
    have hlt : i < st.slots.length := by
      rw [h.slots]
      exact h.lt_of_state (by rw [hst]; decide)
    have mem : fontSlot st i ∈ st.slots := by
      rw [fontSlot, List.getD_eq_getElem?_getD, List.getElem?_eq_getElem hlt]
      exact List.getElem_mem hlt
    have := List.any_eq_false.mp hl _ mem
    rw [hst, firstBankOf, hh] at this
    simpa using this
  refine ⟨⟨by rw [hs, h.slots], by rw [hn, h.fonts], fun i f hf hu => ?_, fun i hlt => ?_, fun e he => ?_, fun i g hg => ?_, ?_⟩,
    belowKept_of_nv hn⟩
  · rw [hn]
    exact h.unfinished i f (nvFont_of_nv hn i ▸ hf) hu
  · refine slotWf_of_eq (h.slot i hlt) (by rw [slot]) (by rw [slot]) (nvFont_of_nv hn i) (fun e _ => by rw [hq])
      (fun hd => absurd hd (noDrop i)) (fun hw => by rw [hi] at hw; cases hw)
      fun hd hst hh hc => ⟨by rw [hn]; exact hc.1, fun v hv => ?_⟩
    rw [ho] at hv
    cases hv
    exact clear i hd hst hh
  · rw [hq] at he
    rw [slot]
    exact .inl ((h.entries e he).resolve_right (noDrop _))
  · rw [hq] at hg
    rw [slot, hn]
    exact h.headers i g hg
  · rw [OpWf, ho, hn]
    exact hv

/-- STORE_WIPE begins: every slot is EMPTY and busy, and the wipe mark is programmed (R39). -/
theorem StoreFit.storeWipe (hs : t.slots = st.slots.map (fun _ => { FontSlot.vacant with busy := true }))
    (hq : t.writeQueue = []) (ho : t.op = some .storeWipe) (hn : t.nv = { st.nv with wipeMark := true }) :
    FitStep st t := by
  have font : ∀ i, nvFont t i = nvFont st i := fun i => by rw [nvFont, nvFont, hn]
  have boundary : t.nv.boundary = st.nv.boundary := by rw [hn]
  have state : ∀ i, (fontSlot t i).state = .empty := fun i => by
    rw [fontSlot, hs, List.getD_eq_getElem?_getD, List.getElem?_map]
    cases st.slots[i]? <;> rfl
  refine ⟨⟨by rw [hs, List.length_map, h.slots], by rw [hn, h.fonts], fun i f hf hu => ?_, fun i _ => ?_, ?_, ?_, ?_⟩,
    ⟨Nat.le_of_eq boundary.symm, fun i f _ => by rw [font]⟩⟩
  · rw [boundary]
    exact h.unfinished i f (font i ▸ hf) hu
  · rw [SlotWf, state]
    exact .inr (.inl ho)
  · rw [hq]
    exact fun _ => nofun
  · rw [hq]
    exact fun _ _ => nofun
  · rw [OpWf, ho, hs]
    refine ⟨by rw [hn], hq, fun v hv => ?_⟩
    obtain ⟨_, -, rfl⟩ := List.mem_map.mp hv
    exact ⟨rfl, rfl⟩

end Requests

end Sys2Proof.Machine
end

section
/-! SUPPORT. What the events of the Font Store, the scan and a reset do to a store that fits (R29 to R40, R171). -/

namespace Sys2Proof.Machine

/-! ### An entry programmed (R29, R34) -/

/-- The font that programming an entry leaves in its slot, over what the banks held there (R29). -/
def entryFont : WriteEntry → Option NvFont → Option NvFont
  | .header _ h, _ => some ⟨h, [], false, false, 0, false⟩
  | .glyphs _ recs, o => o.map (fun f => { f with glyphs := recs.foldl putGlyph f.glyphs })

theorem nvFont_programEntry {st : FontStore} {e : WriteEntry} (hk : entrySlot e < st.nv.fonts.length) :
    nvFont { st with nv := programEntry st.nv e } (entrySlot e) = entryFont e (nvFont st (entrySlot e)) := by
  cases e <;> exact (nvFont_set rfl hk _).trans (if_pos rfl)

/-- The font in an entry's slot after its programming, with the dropped mark that waited for it (R34). -/
theorem nvFont_programmed {st t : FontStore} {e : WriteEntry} (hn : t.nv = programmed st.nv e st.op)
    (hk : entrySlot e < st.nv.fonts.length) :
    nvFont t (entrySlot e)
      = if droppingSlot st.op = some (entrySlot e) then
          (entryFont e (nvFont st (entrySlot e))).map (fun f => { f with dropped := true })
        else entryFont e (nvFont st (entrySlot e)) := by
  have length : (programEntry st.nv e).fonts.length = st.nv.fonts.length := by cases e <;> exact List.length_set
  rw [← nvFont_programEntry hk]
  unfold programmed at hn
  split at hn
  · next hd =>
    rw [if_pos hd]
    exact (nvFont_set (st := { st with nv := programEntry st.nv e }) (congrArg NvStore.fonts hn) (length ▸ hk) _).trans
      (if_pos rfl)
  · next hd =>
    rw [if_neg hd]
    exact nvFont_of_nv (st := { st with nv := programEntry st.nv e }) hn _

theorem programmed_length (nv : NvStore) (e : WriteEntry) (op : Option StoreOp) :
    (programmed nv e op).fonts.length = nv.fonts.length := by
  have entry : (programEntry nv e).fonts.length = nv.fonts.length := by cases e <;> exact List.length_set
  unfold programmed
  split
  · exact List.length_set.trans entry
  · exact entry

/-- A font that an entry's programming leaves lies above the boundary. -/
theorem StoreFit.entryFont_above {st : FontStore} (h : StoreFit st) {e : WriteEntry} (he : e ∈ st.writeQueue) {f : NvFont}
    (hf : entryFont e (nvFont st (entrySlot e)) = some f) : st.nv.boundary ≤ f.header.firstBank := by
  cases e with
  | header k hd =>
    cases hf
    exact (h.headers k hd he).1
  | glyphs k recs =>
    obtain ⟨g, hg, rfl⟩ := Option.map_eq_some_iff.mp hf
    exact h.above ((h.entries _ he).imp_right .inl) g hg

/-- Programming an entry leaves a LOADING font LOADING: its header is the entry's, or stays (R29). -/
theorem StoreFit.entryFont_loading {st : FontStore} (h : StoreFit st) {e : WriteEntry} (he : e ∈ st.writeQueue)
    (hs : (fontSlot st (entrySlot e)).state = .loading) {hd : FontHeader} (hl : Loading st (entrySlot e) hd) {f : NvFont}
    (hf : entryFont e (nvFont st (entrySlot e)) = some f) : f.header = hd ∧ f.endMark = false ∧ f.dropped = false := by
  cases e with
  | header k hh =>
    cases hf
    exact ⟨Option.some.inj (((h.headers k hh he).2 hs).symm.trans hl.header), rfl, rfl⟩
  | glyphs k recs =>
    obtain ⟨g, hg, rfl⟩ := Option.map_eq_some_iff.mp hf
    exact hl.font g hg

/-- An operation in progress goes on after an entry is programmed; a FONT_END then waits for one entry less (R32). -/
theorem OpWf.afterEntry {st t : FontStore} (h : OpWf st) {e : WriteEntry} {rest : List WriteEntry}
    (hq : st.writeQueue = e :: rest) (hs : t.slots = st.slots) (hr : t.writeQueue = rest) (ho : t.op = opAfterEntry st.op)
    (hb : t.nv.boundary = st.nv.boundary)
    (hf : ∀ i, droppingSlot st.op = some i → ∀ f, nvFont t i = some f → st.nv.boundary ≤ f.header.firstBank) : OpWf t := by
  have slot : ∀ i, fontSlot t i = fontSlot st i := fun i => by rw [fontSlot, fontSlot, hs]
  unfold OpWf at h ⊢
  rw [ho]
  cases hop : st.op with
  | none => trivial
  | some op =>
    rw [hop] at h
    cases op with
    | fontEnd i waits =>
      obtain ⟨h1, h2, h3⟩ := h
      simp only [opAfterEntry, slot]
      refine ⟨h1, h2, fun x hx => h3 x ?_⟩
      rw [hr] at hx
      rw [hq]
      cases waits with
      | zero => exact List.mem_cons_of_mem _ hx
      | succ n => exact hx
    | fontDrop i first last =>
      obtain ⟨h1, h2, -⟩ := h
      simp only [opAfterEntry, slot, hb]
      exact ⟨h1, h2, hf i (by rw [hop]; rfl)⟩
    | fontLock i | fontCheck i =>
      simp only [opAfterEntry, slot, hb]
      exact h
    | protectRaise v =>
      simp only [opAfterEntry, hb]
      exact h
    | storeWipe =>
      rw [hq] at h
      cases h.2.1

theorem StoreFit.programmed {st t : FontStore} (h : StoreFit st) {e : WriteEntry} {rest : List WriteEntry}
    (hq : st.writeQueue = e :: rest) (hs : t.slots = st.slots) (hr : t.writeQueue = rest) (ho : t.op = opAfterEntry st.op)
    (hn : t.nv = Machine.programmed st.nv e st.op) : FitStep st t := by
  have he : e ∈ st.writeQueue := by rw [hq]; exact List.mem_cons_self ..
  have front := h.entries e he
  have hk : entrySlot e < 16 := front.elim (fun hl => h.lt_of_state (by rw [hl]; decide))
    fun hd => h.lt_of_busy (h.dropping hd).2.1
  have slot : ∀ i, fontSlot t i = fontSlot st i := fun i => by rw [fontSlot, fontSlot, hs]
  have boundary : t.nv.boundary = st.nv.boundary := hn ▸ (programmed_control st.nv e st.op).1
  have font : ∀ i, i ≠ entrySlot e → nvFont t i = nvFont st i := fun i hi => by
    rw [nvFont, nvFont, hn, List.getD_eq_getElem?_getD, programmed_other _ e _ hi, List.getD_eq_getElem?_getD]
  have here := nvFont_programmed hn (h.fonts ▸ hk)
  have above : ∀ f, nvFont t (entrySlot e) = some f → st.nv.boundary ≤ f.header.firstBank := fun f hf => by
    rw [here] at hf
    split at hf
    · obtain ⟨g, hg, rfl⟩ := Option.map_eq_some_iff.mp hf
      exact h.entryFont_above (f := g) he hg
    · exact h.entryFont_above he hf
  have mem : ∀ x, x ∈ t.writeQueue → x ∈ st.writeQueue := fun x hx => by
    rw [hr] at hx
    rw [hq]
    exact List.mem_cons_of_mem _ hx
  have stays : ∀ x, x ∈ st.writeQueue → x ≠ e → x ∈ t.writeQueue := fun x hx hne => by
    rw [hq] at hx
    rw [hr]
    exact (List.mem_cons.mp hx).resolve_left hne
  have drops : ∀ i, droppingSlot st.op = some i → droppingSlot t.op = some i := fun i hd => by
    obtain ⟨a, b, hop⟩ := (droppingSlot_eq_some _ _).mp hd
    rw [ho, hop]
    rfl
  have raise : ∀ v, t.op = some (.protectRaise v) → st.op = some (.protectRaise v) := fun v hv => by
    rw [ho] at hv
    unfold opAfterEntry at hv
    split at hv
    · cases hv
    · exact hv
  refine ⟨h.of_slot (entrySlot e) (by rw [hs, h.slots]) (by rw [hn, programmed_length, h.fonts]) boundary
    (fun i hi => ⟨slot i, font i hi, fun x hx => ⟨mem x, fun hm => stays x hm (by rintro rfl; exact hi hx.symm)⟩⟩)
    (fun i _ => drops i) (fun hw => by rw [ho, hw]; rfl) raise (fun _ => ?_) (fun f hf => .inl (above f hf))
    (fun x hx hxe => ?_) (fun hd hx => ?_) ?_, belowKept_of_set boundary font (h.above (front.imp_right .inl)) above⟩
  · rcases front with hl | hd
    · obtain ⟨hd, was⟩ := h.loading hl
      have notDropping : droppingSlot st.op ≠ some (entrySlot e) := fun hd => by
        rw [(h.dropping hd).1] at hl
        cases hl
      rw [if_neg notDropping] at here
      refine slotWf_of_loading (by rw [slot, hl]) ⟨by rw [slot, was.header], by rw [boundary]; exact was.above,
        fun v hv => was.raise v (raise v hv), fun f hf => h.entryFont_loading he hl was (here ▸ hf), fun hf => ?_⟩
      rw [here] at hf
      cases e with
      | header k hh => cases hf
      | glyphs k recs => exact stays _ (was.entry (Option.map_eq_none_iff.mp hf)) (by simp)
    · rw [SlotWf, slot, (h.dropping hd).1]
      exact .inl (drops _ hd)
  · rw [slot, ← hxe]
    exact (h.entries x (mem x hx)).imp_right (drops _)
  · rw [slot]
    exact h.headers _ hd (mem _ hx)
  · refine h.op.afterEntry hq hs hr ho boundary fun i hd f hf => ?_
    by_cases hi : i = entrySlot e
    · subst hi
      exact above f hf
    · exact (h.dropping hd).2.2 f (font i hi ▸ hf)

/-! ### Operations that end (R32 to R39) -/

section Ends

variable {st t : FontStore} (h : StoreFit st) {k : Nat}

include h

/-- FONT_END, FONT_LOCK or FONT_CHECK ends: the slot is READY or DAMAGED over a whole font, and no operation is left. -/
theorem StoreFit.completed (hk : k < 16) {v : FontSlot} (hv : v.state = .ready ∨ v.state = .damaged)
    (hs : t.slots = st.slots.set k v) (hq : t.writeQueue = st.writeQueue) (ho : t.op = none) {f : NvFont}
    (hh : v.header = some f.header) (hn : t.nv = withNvFont st.nv k (some f)) (he : f.endMark = true)
    (hd : f.dropped = false) (noEntry : ∀ e ∈ st.writeQueue, entrySlot e ≠ k) (drop : droppingSlot st.op = none)
    (wipe : st.op ≠ some .storeWipe) : StoreFit t := by
  have slots := fontSlot_set hs (h.slots ▸ hk)
  have here := (slots k).trans (if_pos rfl)
  have fonts := nvFont_set (st := st) (t := t) (congrArg NvStore.fonts hn) (h.fonts ▸ hk)
  have font := (fonts k).trans (if_pos rfl)
  have none_ : ∀ e ∈ t.writeQueue, entrySlot e ≠ k := by rwa [hq]
  refine h.of_slot k (by rw [hs, List.length_set, h.slots]) (by rw [hn]; exact List.length_set.trans h.fonts) (by rw [hn]; rfl)
    (fun i hi => ⟨(slots i).trans (if_neg hi), (fonts i).trans (if_neg hi), fun e _ => by rw [hq]⟩)
    (fun i _ hd => by rw [drop] at hd; cases hd) (fun hw => absurd hw wipe) (fun v hv => by rw [ho] at hv; cases hv)
    (fun _ => slotWf_of_complete (by rw [here]; exact hv) ⟨font, by rw [here]; exact hh, he, hd, none_⟩)
    (fun g hg => ?_) (fun e he hek => absurd hek (none_ e he)) (fun g hg => absurd rfl (none_ _ hg)) (by rw [OpWf, ho]; trivial)
  cases font.symm.trans hg
  exact .inr ⟨he, hd⟩

/-- FONT_DROP ends: the slot and its banks hold nothing (R34). -/
theorem StoreFit.dropped {first last : Nat} (hop : st.op = some (.fontDrop k first last))
    (noEntry : ∀ e ∈ st.writeQueue, entrySlot e ≠ k) (hs : t.slots = st.slots.set k FontSlot.vacant)
    (hq : t.writeQueue = st.writeQueue) (ho : t.op = none) (hn : t.nv = withNvFont st.nv k none) : FitStep st t := by
  have dropping : droppingSlot st.op = some k := by rw [hop]; rfl
  obtain ⟨-, busy, above⟩ := h.dropping dropping
  have hk := h.lt_of_busy busy
  have slots := fontSlot_set hs (h.slots ▸ hk)
  have here := (slots k).trans (if_pos rfl)
  have fonts := nvFont_set (st := st) (t := t) (congrArg NvStore.fonts hn) (h.fonts ▸ hk)
  have font := (fonts k).trans (if_pos rfl)
  have bare : ∀ f, nvFont t k ≠ some f := fun f hf => by rw [font] at hf; cases hf
  have none_ : ∀ e ∈ t.writeQueue, entrySlot e ≠ k := by rwa [hq]
  refine ⟨h.of_slot k (by rw [hs, List.length_set, h.slots]) (by rw [hn]; exact List.length_set.trans h.fonts) (by rw [hn]; rfl)
    (fun i hi => ⟨(slots i).trans (if_neg hi), (fonts i).trans (if_neg hi), fun e _ => by rw [hq]⟩)
    (fun i hi hd => absurd (Option.some.inj (hd.symm.trans dropping)) hi) (fun hw => by rw [hop] at hw; cases hw)
    (fun v hv => by rw [ho] at hv; cases hv) (fun _ => ?_) (fun f hf => absurd hf (bare f))
    (fun e he hek => absurd hek (none_ e he)) (fun g hg => absurd rfl (none_ _ hg)) (by rw [OpWf, ho]; trivial),
    belowKept_of_set (by rw [hn]; rfl) (fun i hi => (fonts i).trans (if_neg hi)) above fun f hf => absurd hf (bare f)⟩
  rw [SlotWf, here]
  exact .inr (.inr ⟨font, none_⟩)

/-- PROTECT_RAISE ends: the boundary rises to its value, and no unfinished font reaches below it (R38). -/
theorem StoreFit.raised {value : Nat} (hop : st.op = some (.protectRaise value)) (hs : t.slots = st.slots)
    (hq : t.writeQueue = st.writeQueue) (ho : t.op = none) (hn : t.nv = { st.nv with boundary := value }) : FitStep st t := by
  have slot : ∀ i, fontSlot t i = fontSlot st i := fun i => by rw [fontSlot, fontSlot, hs]
  have font : ∀ i, nvFont t i = nvFont st i := fun i => by rw [nvFont, nvFont, hn]
  have boundary : t.nv.boundary = value := by rw [hn]
  have noDrop : ∀ i, droppingSlot st.op ≠ some i := fun i hd => by rw [hop] at hd; cases hd
  have noWipe : st.op ≠ some .storeWipe := by rw [hop]; exact nofun
  have loading : ∀ e ∈ st.writeQueue, (fontSlot st (entrySlot e)).state = .loading := fun e he =>
    (h.entries e he).resolve_right (noDrop _)
  refine ⟨⟨by rw [hs, h.slots], by rw [hn, h.fonts], fun i f hf hu => ?_, fun i hi => ?_, fun e he => ?_, fun i hd he => ?_,
    by rw [OpWf, ho]; trivial⟩, ⟨?_, fun i f _ => by rw [font]⟩⟩
  · rw [font] at hf
    rw [boundary]
    rcases state_cases (fontSlot st i).state with hst | hst | hst
    · have bare := ((h.empty (h.lt_of_font hf) hst).resolve_left (noDrop i)).resolve_left noWipe
      rw [bare.1] at hf
      cases hf
    · obtain ⟨hd, hl⟩ := h.loading hst
      rw [(hl.font f hf).1]
      exact hl.raise value hop
    · obtain ⟨g, hc⟩ := h.complete hst
      cases hc.font.symm.trans hf
      rw [hc.endMark, hc.dropped] at hu
      simp at hu
  · exact slotWf_of_eq (h.slot i hi) (by rw [slot]) (by rw [slot]) (font i) (fun e _ => by rw [hq])
      (fun hd => absurd hd (noDrop i)) (fun hw => absurd hw noWipe)
      fun hd _ _ hc => ⟨by rw [boundary]; exact hc.2 value hop, fun v hv => by rw [ho] at hv; cases hv⟩
  · rw [hq] at he
    rw [slot]
    exact .inl (loading e he)
  · rw [hq] at he
    have hst := loading _ he
    obtain ⟨g, hl⟩ := h.loading hst
    have same := (h.headers i hd he).2 hst
    cases hl.header.symm.trans same
    rw [slot, boundary]
    exact ⟨hl.raise value hop, fun _ => same⟩
  · have := h.op
    rw [OpWf, hop] at this
    rw [boundary]
    exact this

/-- STORE_WIPE ends: no slot is busy, and the banks are as delivered (R39). -/
theorem StoreFit.wiped (hop : st.op = some .storeWipe) (hs : t.slots = st.slots.map (fun v => { v with busy := false }))
    (hq : t.writeQueue = st.writeQueue) (ho : t.op = none) (hn : t.nv = NvStore.delivered) :
    StoreFit t ∧ st.nv.wipeMark = true := by
  have hw := h.op
  rw [OpWf, hop] at hw
  obtain ⟨mark, queue, vacant⟩ := hw
  have font : ∀ i, nvFont t i = none := fun i => by
    rw [nvFont, hn, NvStore.delivered, List.getD_eq_getElem?_getD, List.getElem?_replicate]
    split <;> rfl
  have state : ∀ i, (fontSlot t i).state = .empty := fun i => by
    rw [fontSlot, hs, List.getD_eq_getElem?_getD, List.getElem?_map]
    cases hv : st.slots[i]? with
    | none => rfl
    | some v => exact (vacant v (List.mem_of_getElem? hv)).1
  refine ⟨⟨by rw [hs, List.length_map, h.slots], by rw [hn]; rfl, fun i f hf => ?_, fun i _ => ?_, ?_, ?_,
    by rw [OpWf, ho]; trivial⟩, mark⟩
  · rw [font] at hf
    cases hf
  · rw [SlotWf, state]
    exact .inr (.inr ⟨font i, by rw [hq, queue]; exact fun _ => nofun⟩)
  · rw [hq, queue]
    exact fun _ => nofun
  · rw [hq, queue]
    exact fun _ _ => nofun

end Ends

end Sys2Proof.Machine
end

section
/-! SUPPORT. Every step keeps the Font Store fitting and, but for a wipe, what lies below the protection boundary (O26). -/

namespace Sys2Proof.Machine

/-- The store is well formed afterwards, and without a wipe mark nothing below the boundary changed (R38). -/
structure Guards (s t : State) : Prop where
  wf : StoreWf t
  below : s.store.nv.wipeMark = false → BelowKept s.store t.store

theorem StoreWf.guards {s : State} (h : StoreWf s) : Guards s s := ⟨h, fun _ => belowKept_of_nv rfl⟩

/-- The font table, the write queue, the operation and the banks stay, and whether the part is in STARTING. -/
structure StoreKept (s t : State) : Prop where
  slots : t.store.slots = s.store.slots
  queue : t.store.writeQueue = s.store.writeQueue
  op : t.store.op = s.store.op
  nv : t.store.nv = s.store.nv
  power : t.settings.power = .starting ↔ s.settings.power = .starting

theorem storeKept_of_eq {s t : State} (h : t.store = s.store)
    (hp : t.settings.power = .starting ↔ s.settings.power = .starting) : StoreKept s t := by
  constructor
  iterate 4 rw [h]
  exact hp

theorem LinkWork.storeKept {s t : State} (h : LinkWork s t) : StoreKept s t :=
  storeKept_of_eq h.store (by rw [h.settings])

theorem StoreKept.storeWf {s t : State} (k : StoreKept s t) (h : StoreWf s) : StoreWf t :=
  h.of_eq k.slots k.queue k.op k.nv k.power

theorem StoreKept.guards {s t : State} (k : StoreKept s t) (h : StoreWf s) : Guards s t :=
  ⟨k.storeWf h, fun _ => belowKept_of_nv k.nv⟩

/-- Work that leaves the store alone, before or after work that guards it. -/
theorem Guards.after {s t u : State} (h : Guards t u) (k : StoreKept s t) : Guards s u :=
  ⟨h.wf, fun hw => (belowKept_of_nv k.nv).trans (h.below (by rw [k.nv]; exact hw))⟩

theorem Guards.before {s t u : State} (h : Guards s t) (k : StoreKept t u) : Guards s u :=
  ⟨k.storeWf h.wf, fun hw => (h.below hw).trans (belowKept_of_nv k.nv)⟩

/-- Quiet work beside the Font Store. -/
theorem Quiet.storeKept {s t : State} (h : Quiet s t) (hs : t.store = s.store) : StoreKept s t :=
  storeKept_of_eq hs (by rw [h.geometry.power])

/-- Work on the Font Store outside STARTING. -/
theorem FitStep.guards {s t : State} (f : FitStep s.store t.store) (hp : s.settings.power ≠ .starting)
    (ht : t.settings.power = s.settings.power) : Guards s t :=
  ⟨f.fit.storeWf (by rwa [ht]), fun _ => f.below⟩

/-! ### Requests -/

theorem badSlot_eq_false {slot : Nat} (h : ¬badSlot slot = true) : slot < 16 := by
  rwa [badSlot_iff, Nat.not_le] at h

/-- What is left of a slot's state once its checks have passed. -/
theorem state_of_not_beq {x y : FontState} (h : ¬(x != y) = true) : x = y := by simpa using h

theorem opRuns_eq_false {s : State} (hr : ¬opRuns s = true) : s.store.op = none := by
  cases ho : s.store.op with
  | none => rfl
  | some op => exact absurd (by rw [opRuns, ho]; rfl) hr

theorem ready_or_damaged {x : FontState} (he : ¬(x == .empty) = true) (hl : ¬(x == .loading) = true) :
    x = .ready ∨ x = .damaged := by
  cases x <;> simp at he hl ⊢

section Requests

variable {s : State} (h : StoreFit s.store)

include h

theorem takeFontBegin_fit (slot : Nat) (hd : FontHeader) : FitStep s.store (takeFontBegin slot hd s).1.store := by
  unfold takeFontBegin
  split
  · exact h.refl_step
  next range =>
  split
  · exact h.refl_step
  next busy =>
  split
  · exact h.refl_step
  next empty =>
  split
  · exact h.refl_step
  next free =>
  split
  · exact h.refl_step
  next room =>
  simp only [Bool.or_eq_true, decide_eq_true_eq, not_or] at range free room
  exact h.fontBegin (badSlot_eq_false range.1) (Bool.eq_false_iff.mpr busy) (state_of_not_beq empty)
    (clear_of_not_raiseAbove (Nat.not_lt.mp free.2) (Bool.eq_false_iff.mpr room.2)) rfl rfl rfl rfl

theorem takeGlyphPut_fit (slot : Nat) (start : Option Nat) (glyphs : List GlyphRec) :
    FitStep s.store (takeGlyphPut slot start glyphs s).1.store := by
  unfold takeGlyphPut
  simp only
  iterate 2 (split; · exact h.refl_step)
  split
  · exact h.refl_step
  next busy =>
  split
  · exact h.refl_step
  split
  · exact h.refl_step
  next loading =>
  iterate 2 (split; · exact h.refl_step)
  split
  · exact h.glyphPut (Bool.eq_false_iff.mpr busy) (state_of_not_beq loading) rfl (.inl rfl) rfl rfl
  split
  · exact h.refl_step
  · exact h.glyphPut (Bool.eq_false_iff.mpr busy) (state_of_not_beq loading) rfl (.inr ⟨_, rfl⟩) rfl rfl

/-- FONT_END, FONT_LOCK or FONT_CHECK begins over a slot whose state its check has found. -/
theorem beginOperation_fit {op : StoreOp} {slot : Nat} (hk : slot < 16) (ho : s.store.op = none)
    (hr : ∀ v, op ≠ .protectRaise v) (hw : OpWf (beginOperation op slot s).store) :
    FitStep s.store (beginOperation op slot s).store :=
  h.begin hk ho rfl rfl rfl rfl hr hw

theorem fontSlot_beginOperation (op : StoreOp) {slot : Nat} (hk : slot < 16) :
    fontSlot (beginOperation op slot s).store slot = { fontSlot s.store slot with busy := true } :=
  (fontSlot_set rfl (h.slots ▸ hk) slot).trans (if_pos rfl)

theorem takeFontEnd_fit (slot : Nat) : FitStep s.store (takeFontEnd slot s).1.store := by
  unfold takeFontEnd
  simp only
  split
  · exact h.refl_step
  next bad =>
  split
  · exact h.refl_step
  next busy =>
  split
  · exact h.refl_step
  split
  · exact h.refl_step
  next loading =>
  simp only [Bool.or_eq_true, not_or] at busy
  have hk := badSlot_eq_false bad
  refine beginOperation_fit h hk (opRuns_eq_false busy.1) (fun _ => nofun) ?_
  rw [OpWf, show (beginOperation (.fontEnd slot s.store.writeQueue.length) slot s).store.op = some _ from rfl]
  simp only [fontSlot_beginOperation h _ hk]
  refine ⟨state_of_not_beq loading, trivial, ?_⟩
  rw [show (beginOperation (.fontEnd slot s.store.writeQueue.length) slot s).store.writeQueue = s.store.writeQueue from rfl,
    List.drop_length]
  exact fun _ => nofun

theorem takeFontDrop_fit (slot : Nat) : FitStep s.store (takeFontDrop slot s).1.store := by
  unfold takeFontDrop
  simp only
  split
  · exact h.refl_step
  next bad =>
  split
  · exact h.refl_step
  next busy =>
  split
  · exact h.refl_step
  next empty =>
  split
  · exact h.refl_step
  next free =>
  split
  · exact h.refl_step
  simp only [Bool.or_eq_true, not_or] at busy
  simp only [fontProtected, decide_eq_true_eq, Nat.not_lt] at free
  refine h.fontDrop (badSlot_eq_false bad) (opRuns_eq_false busy.1)
    (h.above (.inr (.inr ⟨by simpa using empty, free⟩))) rfl rfl rfl ?_
  split
  · exact .inl rfl
  · exact .inr rfl

theorem takeFontLock_fit (slot : Nat) : FitStep s.store (takeFontLock slot s).1.store := by
  unfold takeFontLock
  simp only
  split
  · exact h.refl_step
  next bad =>
  split
  · exact h.refl_step
  next busy =>
  split
  · exact h.refl_step
  next empty =>
  split
  · exact h.refl_step
  next loading =>
  split
  · exact h.refl_step
  next free =>
  iterate 2 (split; · exact h.refl_step)
  simp only [Bool.or_eq_true, not_or] at busy
  simp only [fontProtected, decide_eq_true_eq, Nat.not_lt] at free
  have hk := badSlot_eq_false bad
  refine beginOperation_fit h hk (opRuns_eq_false busy.1) (fun _ => nofun) ?_
  rw [OpWf, show (beginOperation (.fontLock slot) slot s).store.op = some _ from rfl]
  simp only [fontSlot_beginOperation h _ hk]
  exact ⟨ready_or_damaged empty loading, trivial, free⟩

theorem takeFontCheck_fit (slot : Nat) : FitStep s.store (takeFontCheck slot s).1.store := by
  unfold takeFontCheck
  simp only
  split
  · exact h.refl_step
  next bad =>
  split
  · exact h.refl_step
  next busy =>
  split
  · exact h.refl_step
  next empty =>
  split
  · exact h.refl_step
  next loading =>
  simp only [Bool.or_eq_true, not_or] at busy
  have hk := badSlot_eq_false bad
  refine beginOperation_fit h hk (opRuns_eq_false busy.1) (fun _ => nofun) ?_
  rw [OpWf, show (beginOperation (.fontCheck slot) slot s).store.op = some _ from rfl]
  simp only [fontSlot_beginOperation h _ hk]
  exact ⟨ready_or_damaged empty loading, trivial⟩

theorem takeProtectRaise_fit (value : Nat) : FitStep s.store (takeProtectRaise value s).1.store := by
  unfold takeProtectRaise
  split
  · exact h.refl_step
  split
  · exact h.refl_step
  next range =>
  split
  · exact h.refl_step
  next runs =>
  split
  · exact h.refl_step
  next below =>
  split
  · exact h.refl_step
  simp only [Bool.or_eq_true, decide_eq_true_eq, not_or, Nat.not_lt] at range
  exact h.protectRaise (opRuns_eq_false runs) range.2 (Bool.eq_false_iff.mpr below) rfl rfl rfl rfl

theorem takeStoreWipe_fit : FitStep s.store (takeStoreWipe s).1.store := by
  unfold takeStoreWipe
  split
  · exact h.refl_step
  split
  · exact h.refl_step
  next idle =>
  simp only [Bool.or_eq_true, not_or, Bool.not_eq_true, Bool.not_eq_false', List.isEmpty_iff] at idle
  exact h.storeWipe rfl idle.2 rfl rfl

end Requests

/-- An owner's work outside STARTING guards the store (R27, Table 9-3). -/
theorem ownerState_guards (r : Request) {s : State} (h : StoreWf s) (hp : s.settings.power ≠ .starting) :
    Guards s (ownerState r s) := by
  cases hc : changesStore r with
  | false =>
    exact (storeKept_of_eq (ownerState_store hc s)
      ⟨fun ht => absurd ht (ownerState_started r hp), fun ht => absurd ht hp⟩).guards h
  | true =>
    have hf := h.fit hp
    have power : (ownerState r s).settings.power = s.settings.power :=
      (ownerState_quiet (r := r) (by cases r <;> first | rfl | cases hc) s).geometry.power
    refine FitStep.guards ?_ hp power
    cases r with
    | fontBegin slot hd => exact takeFontBegin_fit hf slot hd
    | glyphPut slot i l => exact takeGlyphPut_fit hf slot i l
    | fontEnd slot => exact takeFontEnd_fit hf slot
    | fontDrop slot => exact takeFontDrop_fit hf slot
    | fontLock slot => exact takeFontLock_fit hf slot
    | fontCheck slot => exact takeFontCheck_fit hf slot
    | protectRaise b => exact takeProtectRaise_fit hf b
    | storeWipe => exact takeStoreWipe_fit hf
    | _ => cases hc

end Sys2Proof.Machine
end

section
/-! SUPPORT. Every step guards the store: a request handed over, an event of the Font Store, the scan, a reset, and the work
beside the store (O26). -/

namespace Sys2Proof.Machine

/-! ### Requests handed over (R152) -/

/-- A reply is the link's and the held list's alone (R27, R152). -/
theorem RepliedTo.storeKept {u t : State} (h : RepliedTo u t) : StoreKept u t := by
  rcases h with ⟨tag, kind, a, rfl⟩ | ⟨tag, kind, a, rfl⟩ <;> exact ⟨rfl, rfl, rfl, rfl, Iff.rfl⟩

/-- The owner's work and its reply guard the store; in STARTING none but STATUS comes to an owner (R152). -/
theorem handKnown_guards (tag : Byte) {kind : Byte} {r : Option Request} {s : State} (h : StoreWf s)
    (hk : kind = 0x01#8 → ∀ q, r = some q → q = .status) : Guards s (handKnown tag kind r s) := by
  have answered : ∀ a, Guards s (answer tag kind a s) := fun a =>
    (RepliedTo.storeKept (.inl ⟨tag, kind, a, rfl⟩)).guards h
  unfold handKnown
  split
  · exact answered _
  next taken =>
  split
  · exact answered _
  next q =>
  refine Guards.before ?_ (ownerTakes_repliedTo tag kind q s).storeKept
  by_cases hp : s.settings.power = .starting
  · rw [hk (by_contra fun hne => taken ⟨hp, hne⟩) q rfl]
    exact h.guards
  · exact ownerState_guards q h hp

/-- A payload of STATUS's kind is read as STATUS or not at all (R150). -/
theorem readRequest_status {payload : List Byte} {q : Request} (h : readRequest 0x01 payload = some q) : q = .status := by
  simp only [readRequest, getRequest] at h
  split at h
  · next hr =>
    cases hr
    cases h
    rfl
  · cases h

theorem handRequest_guards (q : RawRequest) {s : State} (h : StoreWf s) : Guards s (handRequest q s) := by
  unfold handRequest
  split
  · refine handKnown_guards _ h fun hk r hr => readRequest_status (payload := q.payload) ?_
    rwa [hk] at hr
  · exact (RepliedTo.storeKept (.inl ⟨_, _, _, rfl⟩)).guards h

theorem present_guards (tag : Byte) (r : Request) {s : State} (h : StoreWf s) : Guards s (present tag r s) := by
  unfold present
  split
  · exact h.guards
  split
  · refine handKnown_guards _ h fun hk q hq => ?_
    cases hq
    by_contra hne
    exact kindByte_ne_status r hne hk
  · exact (arrive_linkWork _ s).storeKept.guards h

theorem handOver_guards {s : State} (h : StoreWf s) : Guards s (handOver s) := by
  unfold handOver
  split
  · exact h.guards
  next q rest _ =>
  split
  · have k : StoreKept s { s with link := { s.link with requests := rest } } := (linkWork_of_link s _).storeKept
    exact (handRequest_guards q (k.storeWf h)).after k
  · exact h.guards

/-! ### Events of the Font Store (R29 to R39) -/

/-- One slot's banks are replaced, and its font lies above the boundary before and after. -/
theorem belowKept_withNvFont {st t : FontStore} {k : Nat} (hk : k < st.nv.fonts.length) {o : Option NvFont}
    (hn : t.nv = withNvFont st.nv k o) (before : ∀ f, nvFont st k = some f → st.nv.boundary ≤ f.header.firstBank)
    (after : ∀ f, o = some f → st.nv.boundary ≤ f.header.firstBank) : BelowKept st t := by
  have fonts := nvFont_set (st := st) (t := t) (congrArg NvStore.fonts hn) hk
  refine belowKept_of_set (by rw [hn]; rfl) (fun i hi => (fonts i).trans (if_neg hi)) before fun f hf => ?_
  rw [fonts, if_pos rfl] at hf
  exact after f hf

theorem withNvFont_nvFont {st : FontStore} {k : Nat} (hk : k < st.nv.fonts.length) :
    withNvFont st.nv k (nvFont st k) = st.nv := by
  rw [withNvFont, nvFont, List.getD_eq_getElem?_getD, List.getElem?_eq_getElem hk, Option.getD_some, List.set_getElem_self]

theorem writeEntryProgrammed_guards {s : State} (h : StoreWf s) : Guards s (writeEntryProgrammed s) := by
  cases hq : s.store.writeQueue with
  | nil =>
    rw [writeEntryProgrammed, hq]
    exact h.guards
  | cons e rest =>
    have hp := h.started_of_entry hq
    rw [writeEntryProgrammed_eq hq]
    exact FitStep.guards ((h.fit hp).programmed hq rfl rfl rfl rfl) hp rfl

theorem fontEndComplete_guards {s : State} (h : StoreWf s) : Guards s (fontEndComplete s) := by
  by_cases ho : ∃ k, s.store.op = some (.fontEnd k 0)
  · obtain ⟨k, ho⟩ := ho
    have hp := h.started_of_op ho
    have fit := h.fit hp
    have hw := fit.op
    rw [OpWf, ho] at hw
    obtain ⟨state, busy, noEntry⟩ := hw
    obtain ⟨hd, loading⟩ := fit.loading state
    have hk := fit.lt_of_busy busy
    cases hf : nvFont s.store k with
    | none => exact absurd rfl (noEntry _ (loading.entry hf))
    | some f =>
      obtain ⟨header, -, fresh⟩ := loading.font f hf
      have above := fit.above (.inl state)
      rw [fontEndComplete_eq ho hf]
      refine FitStep.guards ⟨?_, ?_⟩ hp rfl
      · exact fit.completed hk (.inl rfl) rfl rfl rfl (loading.header.trans (by rw [← header])) rfl rfl fresh noEntry
          (by rw [ho]; rfl) (by rw [ho]; exact nofun)
      · refine belowKept_withNvFont (fit.fonts ▸ hk) rfl above ?_
        rintro _ ⟨⟩
        exact above f hf
  · rw [show fontEndComplete s = s by
      unfold fontEndComplete
      split
      · exact absurd ⟨_, ‹_›⟩ ho
      · rfl]
    exact h.guards

theorem fontDropComplete_guards {s : State} (h : StoreWf s) : Guards s (fontDropComplete s) := by
  unfold fontDropComplete
  split
  · next k first last ho =>
    split
    · exact h.guards
    · next noEntry =>
      have hp := h.started_of_op ho
      exact FitStep.guards ((h.fit hp).dropped ho (by simpa using noEntry) rfl rfl rfl rfl) hp rfl
  · exact h.guards

theorem fontLockComplete_guards {s : State} (h : StoreWf s) : Guards s (fontLockComplete s) := by
  by_cases ho : ∃ k, s.store.op = some (.fontLock k)
  · obtain ⟨k, ho⟩ := ho
    have hp := h.started_of_op ho
    have fit := h.fit hp
    have hw := fit.op
    rw [OpWf, ho] at hw
    obtain ⟨state, busy, free⟩ := hw
    obtain ⟨f, whole⟩ := fit.complete state
    have hk := fit.lt_of_busy busy
    have above := fit.above (.inr (.inr ⟨by rcases state with hs | hs <;> rw [hs] <;> decide, free⟩))
    rw [fontLockComplete_eq ho whole.header whole.font]
    refine FitStep.guards ⟨?_, ?_⟩ hp rfl
    · exact fit.completed hk (v := { fontSlot s.store k with locked := true, busy := false })
        (f := { f with locked := true, checksum := checksumLocked f.header }) state rfl rfl rfl whole.header rfl whole.endMark
        whole.dropped whole.noEntry (by rw [ho]; rfl) (by rw [ho]; exact nofun)
    · refine belowKept_withNvFont (fit.fonts ▸ hk) rfl above ?_
      rintro _ ⟨⟩
      exact above f whole.font
  · rw [show fontLockComplete s = s by
      unfold fontLockComplete
      split
      · exact absurd ⟨_, ‹_›⟩ ho
      · rfl]
    exact h.guards

theorem fontCheckComplete_guards {s : State} (h : StoreWf s) : Guards s (fontCheckComplete s) := by
  by_cases ho : ∃ k, s.store.op = some (.fontCheck k)
  · obtain ⟨k, ho⟩ := ho
    have hp := h.started_of_op ho
    have fit := h.fit hp
    have hw := fit.op
    rw [OpWf, ho] at hw
    obtain ⟨state, busy⟩ := hw
    obtain ⟨f, whole⟩ := fit.complete state
    have hk := fit.lt_of_busy busy
    have banks : s.store.nv = withNvFont s.store.nv k (some f) := by
      rw [← whole.font]
      exact (withNvFont_nvFont (fit.fonts ▸ hk)).symm
    rw [fontCheckComplete_eq ho whole.header whole.font]
    refine FitStep.guards ⟨?_, belowKept_of_nv rfl⟩ hp rfl
    refine fit.completed hk (f := f) ?_ rfl rfl rfl whole.header banks whole.endMark whole.dropped whole.noEntry
      (by rw [ho]; rfl) (by rw [ho]; exact nofun)
    dsimp only
    split
    · exact .inl rfl
    · exact .inr rfl
  · rw [show fontCheckComplete s = s by
      unfold fontCheckComplete
      split
      · exact absurd ⟨_, ‹_›⟩ ho
      · rfl]
    exact h.guards

theorem protectRaiseComplete_guards {s : State} (h : StoreWf s) : Guards s (protectRaiseComplete s) := by
  unfold protectRaiseComplete
  split
  · next value ho =>
    have hp := h.started_of_op ho
    exact FitStep.guards ((h.fit hp).raised ho rfl rfl rfl rfl) hp rfl
  · exact h.guards

theorem storeWipeComplete_guards {s : State} (h : StoreWf s) : Guards s (storeWipeComplete s) := by
  unfold storeWipeComplete
  split
  · next ho =>
    have hp := h.started_of_op ho
    obtain ⟨fit, mark⟩ := (h.fit hp).wiped (t := (endOperation (.ok, .none)
      { s with
        store :=
          { s.store with
            slots := s.store.slots.map (fun v => { v with busy := false }), nv := NvStore.delivered } }).store) ho rfl rfl rfl rfl
    exact ⟨fit.storeWf hp, fun hw => by rw [mark] at hw; cases hw⟩
  · exact h.guards

/-! ### The start-up scan (R40) -/

/-- A font table read off banks that hold whole fonts alone fits them. -/
theorem storeFit_of_scan {st : FontStore} (hf : st.nv.fonts.length = 16) (hs : st.slots = st.nv.fonts.map scanSlot)
    (hq : st.writeQueue = []) (ho : st.op = none)
    (whole : ∀ i f, nvFont st i = some f → f.endMark = true ∧ f.dropped = false) : StoreFit st := by
  have slot : ∀ i, fontSlot st i = scanSlot (nvFont st i) := fun i => by
    simp only [fontSlot, nvFont, hs, List.getD_eq_getElem?_getD, List.getElem?_map]
    cases st.nv.fonts[i]? <;> rfl
  have noEntry : ∀ i, ∀ e ∈ st.writeQueue, entrySlot e ≠ i := by
    rw [hq]
    exact fun _ _ => nofun
  refine ⟨by rw [hs, List.length_map, hf], hf, fun i f hif hu => ?_, fun i _ => ?_, by rw [hq]; exact fun _ => nofun,
    by rw [hq]; exact fun _ _ => nofun, by rw [OpWf, ho]; trivial⟩
  · obtain ⟨h1, h2⟩ := whole i f hif
    rw [h1, h2] at hu
    simp at hu
  · cases hif : nvFont st i with
    | none =>
      rw [SlotWf, slot, hif]
      exact .inr (.inr ⟨rfl, noEntry i⟩)
    | some f =>
      obtain ⟨h1, h2⟩ := whole i f hif
      have here := (slot i).trans (congrArg scanSlot hif)
      refine slotWf_of_complete ?_ ⟨hif, by rw [here]; rfl, h1, h2, noEntry i⟩
      rw [here, scanSlot]
      dsimp only
      split
      · exact .inl rfl
      · exact .inr rfl

theorem keptFont_eq_some {o : Option NvFont} {f : NvFont} :
    keptFont o = some f ↔ o = some f ∧ f.endMark = true ∧ f.dropped = false := by
  cases o with
  | none => simp [keptFont]
  | some g =>
    by_cases he : g.dropped = true ∨ g.endMark = false
    · rw [keptFont_erased he]
      refine ⟨nofun, ?_⟩
      rintro ⟨⟨⟩, h1, h2⟩
      simp [h1, h2] at he
    · rw [not_or, Bool.not_eq_true, Bool.not_eq_false] at he
      rw [keptFont_kept he.1 he.2, Option.some.injEq]
      exact ⟨fun h => ⟨h, h ▸ he.2, h ▸ he.1⟩, And.left⟩

/-- The scan keeps a whole font as it is, and no other (R40). -/
theorem nvFont_scanStore {st : FontStore} (hw : st.nv.wipeMark = false) (i : Nat) :
    nvFont (scanStore st) i = keptFont (nvFont st i) := by
  simp only [nvFont, scanStore, scanBanks_of_no_wipe hw, List.getD_eq_getElem?_getD, List.getElem?_map]
  cases st.nv.fonts[i]? <;> rfl

theorem nvFont_scanStore_of_wipe {st : FontStore} (hw : st.nv.wipeMark = true) (i : Nat) : nvFont (scanStore st) i = none := by
  simp only [nvFont, scanStore, scanBanks_of_wipe hw, NvStore.delivered, List.getD_eq_getElem?_getD, List.getElem?_replicate]
  split <;> rfl

theorem StoreUnscanned.scanned {st : FontStore} (h : StoreUnscanned st) : StoreFit (scanStore st) := by
  cases hw : st.nv.wipeMark with
  | false =>
    refine storeFit_of_scan ?_ rfl h.queue h.op fun i f hf => ?_
    · rw [scanStore, scanBanks_of_no_wipe hw, List.length_map, h.fonts]
    · rw [nvFont_scanStore hw, keptFont_eq_some] at hf
      exact hf.2
  | true =>
    refine storeFit_of_scan ?_ rfl h.queue h.op fun i f hf => ?_
    · rw [scanStore, scanBanks_of_wipe hw]
      rfl
    · rw [nvFont_scanStore_of_wipe hw] at hf
      cases hf

/-- Without a wipe mark the scan erases nothing below the boundary: a font that reaches there is whole (R38, R40). -/
theorem StoreUnscanned.scan_below {st : FontStore} (h : StoreUnscanned st) (hw : st.nv.wipeMark = false) :
    BelowKept st (scanStore st) := by
  refine ⟨by rw [scanStore, scanBanks_of_no_wipe hw], fun i f hf => ?_⟩
  rw [nvFont_scanStore hw, keptFont_eq_some]
  refine ⟨And.left, fun hi => ⟨hi, ?_⟩⟩
  by_contra hu
  rw [not_and_or, Bool.not_eq_true, Bool.not_eq_false] at hu
  exact absurd (h.unfinished i f hi hu) (Nat.not_le.mpr hf)

theorem startupScanEnd_guards {s : State} (h : StoreWf s) : Guards s (startupScanEnd s) := by
  by_cases hp : s.settings.power = .starting
  · cases hr : s.pins.resetHeld with
    | true =>
      rw [startupScanEnd_waits (.inr hr)]
      exact h.guards
    | false =>
      have unscanned := h.unscanned hp
      rw [startupScanEnd_eq hp hr]
      exact ⟨unscanned.scanned.storeWf (by exact (by decide : Power.standby ≠ .starting)), unscanned.scan_below⟩
  · rw [startupScanEnd_waits (.inl hp)]
    exact h.guards

/-! ### Resets (R29, R171) -/

/-- What a cut programming leaves: the header of the oldest entry, or nothing (R29). -/
theorem cutProgramming_cases (st : FontStore) :
    cutProgramming st = st.nv
      ∨ ∃ k hd rest, st.writeQueue = .header k hd :: rest
        ∧ cutProgramming st = withNvFont st.nv k (some ⟨hd, [], false, false, 0, false⟩) := by
  unfold cutProgramming
  split
  · next k hd rest hq => exact .inr ⟨k, hd, rest, hq, rfl⟩
  · exact .inl rfl

/-- The store after a reset is one that awaits its scan, and nothing below the boundary changed, a wipe mark or not. -/
structure ResetKept (s t : State) : Prop where
  wf : StoreWf t
  below : BelowKept s.store t.store

theorem ResetKept.guards {s t : State} (h : ResetKept s t) : Guards s t := ⟨h.wf, fun _ => h.below⟩

theorem StoreKept.resetKept {s t : State} (k : StoreKept s t) (h : StoreWf s) : ResetKept s t :=
  ⟨k.storeWf h, belowKept_of_nv k.nv⟩

theorem ResetKept.trans {s t u : State} (h : ResetKept s t) (k : ResetKept t u) : ResetKept s u :=
  ⟨k.wf, h.below.trans k.below⟩

theorem StoreWf.unfinished {s : State} (h : StoreWf s) {i : Nat} {f : NvFont} (hf : nvFont s.store i = some f)
    (hu : f.endMark = false ∨ f.dropped = true) : s.store.nv.boundary ≤ f.header.firstBank := by
  by_cases hp : s.settings.power = .starting
  · exact (h.unscanned hp).unfinished i f hf hu
  · exact (h.fit hp).unfinished i f hf hu

theorem StoreWf.fonts {s : State} (h : StoreWf s) : s.store.nv.fonts.length = 16 := by
  by_cases hp : s.settings.power = .starting
  · exact (h.unscanned hp).fonts
  · exact (h.fit hp).fonts

/-- The banks that a reset leaves are those found, but for an unfinished font above the boundary (R29). -/
theorem resetPart_kept (c : ResetCause) {s : State} (h : StoreWf s) : ResetKept s (resetPart c s) := by
  have unscanned : ∀ nv : NvStore, nv.fonts.length = 16 →
      (∀ i f, nvFont (FontStore.reset nv) i = some f → f.endMark = false ∨ f.dropped = true →
        nv.boundary ≤ f.header.firstBank) → StoreUnscanned (FontStore.reset nv) :=
    fun nv hf hu => ⟨rfl, hf, rfl, rfl, hu⟩
  have store : (resetPart c s).store = FontStore.reset (cutProgramming s.store) := rfl
  rcases cutProgramming_cases s.store with hn | ⟨k, hd, rest, hq, hn⟩
  · rw [hn] at store
    exact ⟨StoreUnscanned.storeWf (by rw [store]; exact unscanned _ h.fonts fun i f => h.unfinished) rfl,
      by rw [store]; exact belowKept_of_nv rfl⟩
  · rw [hn] at store
    have fit := h.fit (h.started_of_entry hq)
    have front : WriteEntry.header k hd ∈ s.store.writeQueue := by rw [hq]; exact List.mem_cons_self ..
    have slot : (fontSlot s.store k).state = .loading ∨ droppingSlot s.store.op = some k := fit.entries _ front
    have header := (fit.headers k hd front).1
    have hk : k < s.store.nv.fonts.length := fit.fonts ▸ slot.elim (fun hl => fit.lt_of_state (by rw [hl]; decide))
      fun hd => fit.lt_of_busy (fit.dropping hd).2.1
    have fonts := nvFont_set (st := s.store)
      (t := FontStore.reset (withNvFont s.store.nv k (some ⟨hd, [], false, false, 0, false⟩))) rfl hk
    refine ⟨StoreUnscanned.storeWf (by
      rw [store]
      refine unscanned _ (List.length_set.trans h.fonts) fun i f hf hu => ?_
      rw [fonts] at hf
      split at hf
      · cases hf
        exact header
      · exact h.unfinished hf hu) rfl, ?_⟩
    rw [store]
    refine belowKept_withNvFont hk rfl (fit.above (slot.imp_right .inl)) ?_
    rintro _ ⟨⟩
    exact header

theorem assertReset_kept {s : State} (h : StoreWf s) : ResetKept s (assertReset s) :=
  (resetPart_kept .pin h).trans
    (StoreKept.resetKept (storeKept_of_eq rfl Iff.rfl) (resetPart_kept .pin h).wf)

theorem portEvents_kept (l : List PortEvent) {s : State} (h : StoreWf s) : ResetKept s (portEvents l s) :=
  portEvents_keeps_linkWork (P := ResetKept s) (fun w k => k.trans (w.storeKept.resetKept k.wf))
    (fun k => k.trans (resetPart_kept .request k.wf)) l ((LinkWork.refl s).storeKept.resetKept h)

theorem replySent_guards {s : State} (h : StoreWf s) : Guards s (replySent s) := by
  unfold replySent
  split
  · exact h.guards
  · exact (portEvents_kept _ h).guards

/-! ### Steps -/

theorem eventState_guards (i : Instr) {s : State} (h : StoreWf s) : Guards s (eventState i s) := by
  cases i with
  | frameReceived l => exact (portEvents_kept l h).guards
  | abandonedFrame second => exact (portEvents_kept [.byte second] h).guards
  | handOver => exact handOver_guards h
  | replySent => exact replySent_guards h
  | fontEndComplete => exact fontEndComplete_guards h
  | fontDropComplete => exact fontDropComplete_guards h
  | fontLockComplete => exact fontLockComplete_guards h
  | fontCheckComplete => exact fontCheckComplete_guards h
  | protectRaiseComplete => exact protectRaiseComplete_guards h
  | storeWipeComplete => exact storeWipeComplete_guards h
  | writeEntryProgrammed => exact writeEntryProgrammed_guards h
  | rasterPathGrant => exact ((rasterPathGrant_quiet s).storeKept (rasterPathGrant_store s)).guards h
  | replayEnd => exact ((replayEnd_quiet s).storeKept (replayEnd_store s)).guards h
  | pagePaperFill => exact ((pagePaperFill_quiet s).storeKept (pagePaperFill_store s)).guards h
  | lineSet => exact ((lineSet_quiet s).storeKept (lineSet_store s)).guards h
  | glyphSpanDrawn => exact ((glyphSpanDrawn_quiet s).storeKept (glyphSpanDrawn_store s)).guards h
  | overlayLineDone => exact ((overlayLineDone_quiet s).storeKept (overlayLineDone_store s)).guards h
  | retintLineRedrawn => exact ((retintLineRedrawn_quiet s).storeKept (retintLineRedrawn_store s)).guards h
  | latchTile => exact ((latchTile_quiet s).storeKept (latchTile_store s)).guards h
  | panelFrameBoundary => exact ((panelFrameBoundary_quiet s).storeKept (panelFrameBoundary_store s)).guards h
  | laneFrame lane => exact ((laneFrame_quiet lane s).storeKept (laneFrame_store lane s)).guards h
  | dispatchScan => exact ((dispatchScan_quiet s).storeKept (dispatchScan_store s)).guards h
  | updateCompletion lane => exact ((updateCompletion_quiet lane s).storeKept (updateCompletion_store lane s)).guards h
  | deghostExpiry => exact ((deghostExpiry_quiet s).storeKept (deghostExpiry_store s)).guards h
  | temperatureStale => exact ((temperatureStale_quiet s).storeKept (temperatureStale_store s)).guards h
  | resetPin => exact (assertReset_kept h).guards
  | resetPinRelease => exact (Quiet.storeKept (t := releaseReset s) (quiet_pins s _) rfl).guards h
  | startupScanEnd => exact startupScanEnd_guards h
  | driveHoldLevelChange level => exact (Quiet.storeKept (t := setDriveHold level s) (quiet_pins s _) rfl).guards h
  | _ => exact h.guards

theorem Stepped.guards {s t : State} (h : Stepped s t) (hs : StoreWf s) : Guards s t := by
  cases h with
  | idles => exact ((idle_quiet s).storeKept (idle_store s)).guards hs
  | presents tag r => exact present_guards tag r hs
  | takes i => exact eventState_guards i hs

/-! ### The obligation -/

theorem fontDropComplete_eq {s : State} {slot first last : Nat} (ho : s.store.op = some (.fontDrop slot first last))
    (hq : ∀ e ∈ s.store.writeQueue, entrySlot e ≠ slot) :
    fontDropComplete s
      = endOperation (.ok, .none)
        { s with
          store :=
            { s.store with
              slots := s.store.slots.set slot FontSlot.vacant, nv := withNvFont s.store.nv slot none } } := by
  have noEntry : s.store.writeQueue.any (fun e => entrySlot e == slot) = false := by simpa using hq
  unfold fontDropComplete
  simp only [ho, noEntry]
  rfl

theorem storeWipeComplete_eq {s : State} (ho : s.store.op = some .storeWipe) :
    storeWipeComplete s
      = endOperation (.ok, .none)
        { s with
          store :=
            { s.store with
              slots := s.store.slots.map (fun v => { v with busy := false }), nv := NvStore.delivered } } := by
  rw [storeWipeComplete, ho]

theorem protectRaiseComplete_eq {s : State} {value : Nat} (ho : s.store.op = some (.protectRaise value)) :
    protectRaiseComplete s
      = endOperation (.ok, .boundary value)
        { s with store := { s.store with nv := { s.store.nv with boundary := value } } } := by
  rw [protectRaiseComplete, ho]

/-- Settles O26: each end's effect and the reply it fills; and a step over a queue of commands idles, presents a request or
takes an event, each of which guards the store. -/
theorem eraseAndProtectComplete : Obligations.EraseAndProtectComplete := by
  refine ⟨fun s tag kind hh hr => ⟨fun slot first last ho hq => congrArg Host.Outcome.next ?_,
    fun ho => congrArg Host.Outcome.next ?_, fun value ho => congrArg Host.Outcome.next ?_⟩, fun s t hs h => ?_⟩
  · exact (fontDropComplete_eq ho hq).trans (endOperation_fills tag kind _ hh hr)
  · exact (storeWipeComplete_eq ho).trans (endOperation_fills tag kind _ hh hr)
  · exact (protectRaiseComplete_eq ho).trans (endOperation_fills tag kind _ hh hr)
  · obtain ⟨rest, h⟩ := step_stepped h
    obtain ⟨wf, below⟩ := h.guards hs
    exact ⟨wf, fun hw => ⟨(below hw).boundary, (below hw).fonts⟩⟩

end Sys2Proof.Machine
end

section
/-! SUPPORT. Low clocks give a reply byte after byte; the last byte of a RESET's reply makes the reset take effect (R147, R153,
R156, R171). -/

namespace Sys2Proof.Machine

/-! ### A byte given -/

/-- Bits given on the outbound line (R147). -/
def noteBits (l : List Bool) (s : State) : State := { s with link := { s.link with givenBits := s.link.givenBits ++ l } }

theorem bitsOfByte_drop (b : Byte) {n : Nat} (h : n < 8) :
    (bitsOfByte b).drop n = b.getMsbD n :: (bitsOfByte b).drop (n + 1) := by
  have hn : n < (bitsOfByte b).length := h
  rw [List.drop_eq_getElem_cons hn]
  simp [bitsOfByte]

theorem lineBits_cons (b : Byte) (l : List Byte) : lineBits (b :: l) = bitsOfByte b ++ lineBits l := rfl

/-- The clocks that an exchange under way still takes complete it, and they give the rest of its outbound byte (R147). -/
theorem clocks_complete_exchange (n : Nat) {s : State} (h : s.link.port.bits.length + n = 7) :
    ∃ x, (List.replicate (n + 1) (PortEvent.clock false)).foldl portEvent s
      = exchange (outgoing s.link) x
        (noteBits ((bitsOfByte (outByte (outgoing s.link) s.link)).drop s.link.port.bits.length) s) := by
  induction n generalizing s with
  | zero =>
    have h7 : s.link.port.bits.length = 7 := h
    refine ⟨byteOfBits (s.link.port.bits ++ [false]), (clockBit_completes h7.ge false).trans ?_⟩
    rw [bitsOfByte_drop _ (by omega), h7]
    rfl
  | succ n ih =>
    rw [List.replicate_succ, List.foldl_cons, portEvent, clockBit_goes_on (by omega)]
    obtain ⟨x, hx⟩ := ih (s := { s with
      link :=
        { s.link with
          port := ⟨s.link.port.bits ++ [false], some (outgoing s.link)⟩
          givenBits := s.link.givenBits ++ [(outByte (outgoing s.link) s.link).getMsbD s.link.port.bits.length] } })
      (by simp only [List.length_append, List.length_singleton]; omega)
    refine ⟨x, hx.trans ?_⟩
    rw [bitsOfByte_drop (outByte (outgoing s.link) s.link) (by omega)]
    simp only [outgoing, outByte, noteBits, exchange, List.length_append, List.length_singleton, List.append_assoc,
      List.singleton_append]

/-- A received byte gives nothing (R149). -/
theorem receiveByte_given (s : State) (b : Byte) :
    (receiveByte s b).link.given = s.link.given ∧ (receiveByte s b).link.givenBits = s.link.givenBits := by
  unfold receiveByte
  split
  · exact ⟨rfl, rfl⟩
  · split
    case h_6 =>
      unfold judge arrive
      repeat' split
      all_goals exact ⟨rfl, rfl⟩
    case h_4 => split <;> exact ⟨rfl, rfl⟩
    all_goals exact ⟨rfl, rfl⟩

/-! ### A reply's byte (R153) -/

/-- The link is amid a reply, with the bytes `owed` to give; it has given `given`, and on its line `bits`. -/
structure Sending (s : State) (r : Reply) (owed given : List Byte) (bits : List Bool) : Prop where
  filled : ∃ more, s.link.filled = r :: more
  owes : owedBytes s.link r = owed
  sent : s.link.sent < (replyFrame r).length
  given : s.link.given = given
  givenBits : s.link.givenBits = bits

/-- The next byte is the fill of an exchange cut before, or the reply's (R147, R153). -/
theorem Sending.next_byte {s : State} {r : Reply} {b : Byte} {bs given : List Byte} {bits : List Bool}
    (h : Sending s r (b :: bs) given bits) :
    outgoing s.link = .fill ∧ b = 0x00#8 ∧ bs = (replyFrame r).drop s.link.sent
      ∨ outgoing s.link = .reply ∧ b = (replyFrame r).getD s.link.sent 0#8 ∧ bs = (replyFrame r).drop (s.link.sent + 1) := by
  obtain ⟨more, filled⟩ := h.filled
  have owes := h.owes
  unfold owedBytes at owes
  by_cases hf : s.link.port.out = some .fill
  · rw [if_pos hf] at owes
    obtain ⟨rfl, rfl⟩ := List.cons.inj owes
    exact .inl ⟨by rw [outgoing, hf], rfl, rfl⟩
  · rw [if_neg hf, List.nil_append, List.drop_eq_getElem_cons h.sent] at owes
    obtain ⟨hb, hbs⟩ := List.cons.inj owes
    refine .inr ⟨?_, by rw [← hb, List.getD_eq_getElem?_getD, List.getElem?_eq_getElem h.sent, Option.getD_some], hbs.symm⟩
    unfold outgoing
    split
    · next o ho =>
      cases o with
      | fill => exact absurd ho hf
      | reply => rfl
    · rw [filled]
      rfl

theorem Sending.outByte {s : State} {r : Reply} {b : Byte} {bs given : List Byte} {bits : List Bool}
    (h : Sending s r (b :: bs) given bits) : outByte (outgoing s.link) s.link = b := by
  obtain ⟨more, filled⟩ := h.filled
  rcases h.next_byte with ⟨ho, hb, -⟩ | ⟨ho, hb, -⟩
  · rw [ho, hb]
    rfl
  · rw [ho, hb]
    simp only [Machine.outByte, filled]

/-- Taking an inbound byte leaves the reply at the front of the places, and the port between exchanges (R149, R154). -/
theorem Sending.received {s : State} {r : Reply} {owed given : List Byte} {bits : List Bool}
    (h : Sending s r owed given bits) (x : Byte) {v : State}
    (hv : v = receiveByte { s with link := { s.link with port := Port.idle } } x) :
    LinkWork s v ∧ (∃ more, v.link.filled = r :: more) ∧ v.link.port = Port.idle ∧ v.link.sent = s.link.sent
      ∧ v.link.given = given ∧ v.link.givenBits = bits := by
  obtain ⟨more, filled⟩ := h.filled
  obtain ⟨port, sent, l, kept⟩ := receiveByte_filled { s with link := { s.link with port := Port.idle } } x
  obtain ⟨g, gb⟩ := receiveByte_given { s with link := { s.link with port := Port.idle } } x
  subst hv
  exact ⟨(linkWork_of_link s _).trans (receiveByte_linkWork _ x), ⟨more ++ l, by rw [kept, filled, List.cons_append]⟩, port,
    sent, g.trans h.given, gb.trans h.givenBits⟩

theorem owedBytes_idle {l : LinkUnit} (hp : l.port = Port.idle) (r : Reply) : owedBytes l r = (replyFrame r).drop l.sent := by
  rw [owedBytes, hp, if_neg (by decide), List.nil_append]

/-- An exchange that is not the reply's last gives its byte, and the next begins (R153). -/
theorem Sending.next {s : State} {r : Reply} {b : Byte} {bs given : List Byte} {bits : List Bool}
    (h : Sending s r (b :: bs) given bits) (hb : bs ≠ []) (x : Byte) {t : State} (ht : t = exchange (outgoing s.link) x s) :
    LinkWork s t ∧ t.link.port = Port.idle ∧ Sending t r bs (given ++ [b]) bits := by
  rw [exchange_eq] at ht
  obtain ⟨work, filled, port, sent, g, gb⟩ := h.received x rfl
  generalize receiveByte { s with link := { s.link with port := Port.idle } } x = v at *
  rcases h.next_byte with ⟨ho, rfl, rfl⟩ | ⟨ho, hbyte, rfl⟩
  · rw [ho, giveByte_fill] at ht
    subst ht
    exact ⟨work.trans rfl, port, filled, by rw [← sent]; exact owedBytes_idle port r, sent.trans_lt h.sent, by rw [← g]; rfl,
      gb⟩
  · have more := Nat.lt_of_not_le (mt List.drop_eq_nil_of_le hb)
    obtain ⟨rest, filled⟩ := filled
    rw [ho, giveByte_next filled (by rwa [sent])] at ht
    subst ht
    refine ⟨work.trans rfl, port, ⟨rest, filled⟩, ?_, by simpa only [sent] using more, by rw [← g, hbyte, ← sent], gb⟩
    rw [← sent]
    exact owedBytes_idle (by exact port) r

/-! ### RESET's reply (R156) -/

/-- The state after the last byte of a RESET's reply has been given: every block has its values after reset but for the
nonvolatile memory, and the record of what was given stays (R29, R156, R171, log entry 16). -/
def afterReply (s : State) (frame given : List Byte) (bits : List Bool) : State :=
  { State.afterReset .request (cutProgramming s.store) s.pins s.pending with
    link := { LinkUnit.reset with givenBits := bits, given := given, lastSent := some frame } }

theorem LinkWork.afterReply {s t : State} (h : LinkWork s t) : afterReply t = afterReply s := by
  unfold Machine.afterReply
  rw [h.store, h.pins, h.pending]

/-- The exchange of the last byte of a RESET's reply (R156). -/
theorem Sending.last {s : State} {r : Reply} {b : Byte} {given : List Byte} {bits : List Bool}
    (h : Sending s r [b] given bits) (hr : isResetReply r = true) (x : Byte) :
    exchange (outgoing s.link) x s = afterReply s (replyFrame r) (given ++ [b]) bits := by
  rw [exchange_eq]
  obtain ⟨work, ⟨rest, filled⟩, -, sent, g, gb⟩ := h.received x rfl
  generalize receiveByte { s with link := { s.link with port := Port.idle } } x = v at *
  rcases h.next_byte with ⟨-, -, hn⟩ | ⟨ho, hbyte, hn⟩
  · exact absurd (List.drop_eq_nil_iff.mp hn.symm) (Nat.not_le.mpr h.sent)
  · rw [ho, giveByte_last filled (by rw [sent]; exact List.drop_eq_nil_iff.mp hn.symm), finishReply, ← work.afterReply]
    simp only [hr, if_true]
    rw [hbyte, ← sent, ← g, ← gb]
    rfl

/-- Low clocks give what the reply still owes, byte after byte, and then the reset takes effect (R147, R153, R156). -/
theorem clocks_reset {r : Reply} (hr : isResetReply r = true) {owed : List Byte} (ho : owed ≠ []) {s : State}
    {given : List Byte} {bits : List Bool} (h : Sending s r owed given bits) (hl : s.link.port.bits.length < 8) :
    (List.replicate (8 * owed.length - s.link.port.bits.length) (PortEvent.clock false)).foldl portEvent s
      = afterReply s (replyFrame r) (given ++ owed) (bits ++ (lineBits owed).drop s.link.port.bits.length) := by
  induction owed generalizing s given bits with
  | nil => exact absurd rfl ho
  | cons b bs ih =>
    obtain ⟨x, first⟩ := clocks_complete_exchange (7 - s.link.port.bits.length) (s := s) (by omega)
    have clocks : 8 * (b :: bs).length - s.link.port.bits.length = 7 - s.link.port.bits.length + 1 + 8 * bs.length := by
      rw [List.length_cons]
      omega
    have line : (lineBits (b :: bs)).drop s.link.port.bits.length
        = (bitsOfByte b).drop s.link.port.bits.length ++ lineBits bs := by
      rw [lineBits_cons, List.drop_append_of_le_length (by exact hl.le)]
    rw [clocks, List.replicate_add, List.foldl_append, first, h.outByte, line]
    have noted : Sending (noteBits ((bitsOfByte b).drop s.link.port.bits.length) s) r (b :: bs) given
        (bits ++ (bitsOfByte b).drop s.link.port.bits.length) :=
      ⟨h.filled, h.owes, h.sent, h.given, congrArg (· ++ _) h.givenBits⟩
    have work : LinkWork s (noteBits ((bitsOfByte b).drop s.link.port.bits.length) s) := rfl
    by_cases hb : bs = []
    · subst hb
      exact (noted.last hr x).trans (by rw [work.afterReply, lineBits, List.map_nil, List.flatten_nil, List.append_nil])
    · obtain ⟨work', port, next⟩ := noted.next hb x rfl
      have rest := ih hb next (by rw [port]; decide)
      rw [port] at rest
      exact rest.trans (by
        rw [(work.trans work').afterReply, List.append_assoc, List.append_assoc]
        rfl)

/-- REPLY_SENT over the reply of a RESET (R153, R156). -/
theorem replySent_reset {s : State} {r : Reply} {rest : List Reply} (hf : s.link.filled = r :: rest)
    (hr : isResetReply r = true) (hw : PortWf s) :
    replySent s
      = afterReply s (replyFrame r) (owedBytes s.link r) ((lineBits (owedBytes s.link r)).drop s.link.port.bits.length) := by
  obtain ⟨bits, -, sent⟩ := hw
  have sending : Sending (clearGiven s) r (owedBytes s.link r) [] [] := ⟨⟨rest, hf⟩, rfl, sent r rest hf, rfl, rfl⟩
  have owes : owedBytes s.link r ≠ [] := fun he =>
    absurd (List.drop_eq_nil_iff.mp (List.append_eq_nil_iff.mp he).2) (Nat.not_le.mpr (sent r rest hf))
  rw [replySent_clocks hf]
  exact clocks_reset hr owes sending bits

/-! ### The reset pin (R171) -/

theorem receiveByte_held {s : State} (h : s.pins.resetHeld = true) (b : Byte) : receiveByte s b = s := by
  rw [receiveByte, if_pos h]

/-- While the pin holds the part an exchange gives fill, and its inbound byte is discarded (R171). -/
theorem held_byte {s : State} (hr : s.pins.resetHeld = true) (hf : s.link.filled = []) (hp : s.link.port = Port.idle)
    (b : Byte) :
    portEvents [.byte b] s
      = { s with link := { s.link with givenBits := List.replicate 8 false, given := [0x00#8] } } := by
  have fill : outgoing (clearGiven s).link = .fill := by
    show outgoing { s.link with givenBits := [], given := [] } = .fill
    rw [outgoing, hp, hf]
    rfl
  have bits : bitsOfByte (outByte .fill (clearGiven s).link) = List.replicate 8 false :=
    (by decide : bitsOfByte 0#8 = List.replicate 8 false)
  rw [portEvents, List.foldl_cons, List.foldl_nil, portEvent_byte (by exact congrArg Port.bits hp), fill, bits, exchange_eq]
  refine (congrArg (giveByte .fill) (receiveByte_held (by exact hr) b)).trans ?_
  rw [giveByte_fill, ← hp]
  rfl

/-- What the statement calls the nonvolatile memory after a reset is what the cut programming leaves (R29). -/
theorem eq_cutProgramming {st : FontStore} {nv : NvStore}
    (cut : ∀ k h rest, st.writeQueue = .header k h :: rest →
      nv = { st.nv with fonts := st.nv.fonts.set k (some ⟨h, [], false, false, 0, false⟩) })
    (kept : (∀ k h rest, st.writeQueue ≠ .header k h :: rest) → nv = st.nv) : nv = cutProgramming st := by
  unfold cutProgramming
  split
  · next k h rest hq => exact cut k h rest hq
  · next other => exact kept other

/-- Settles O9: the reply's clocks by `replySent_reset`, the pin by what it leaves at once. -/
theorem resetsTakeEffect : Obligations.ResetsTakeEffect := by
  intro s tag nv cut kept
  obtain rfl := eq_cutProgramming cut kept
  refine ⟨fun h => congrArg Host.Outcome.next ?_, fun r rest frame hf hk hs hw hframe owed ho => congrArg Host.Outcome.next ?_,
    rfl, fun b hr hf hp => congrArg Host.Outcome.next (held_byte hr hf hp b), rfl, fun _ => rfl⟩
  · exact (present_ready h tag .reset).trans (decided_eq _ _ _)
  · subst hframe ho
    exact replySent_reset hf (by rw [isResetReply, hk, hs]; rfl) hw

end Sys2Proof.Machine
end

section
/-! SUPPORT. Every step keeps the raster path with the one claimant that runs (O56), said of a composition by the holder of the
path and what runs of each kind of claimant (R44 to R47). -/

namespace Sys2Proof.Machine

/-! ### Who claims the raster path -/

/-- The path's holder, and what runs of each kind of claimant: the started job, the retint jobs, the latch. -/
structure Claims where
  path : PathHolder
  job : Bool
  retints : Nat
  latch : Bool

/-- The claims of a composition. -/
def claimsOf (c : Composition) : Claims where
  path := c.path
  job := c.started.any (·.running)
  retints := c.retints.countP (fun e => e.run.isSome)
  latch := commitState c.commit == .latching

/-- The claims where the path's holder, and nothing else, runs. -/
def heldBy : PathHolder → Claims
  | .free => ⟨.free, false, 0, false⟩
  | .composeJob => ⟨.composeJob, true, 0, false⟩
  | .retintJob => ⟨.retintJob, false, 1, false⟩
  | .latch => ⟨.latch, false, 0, true⟩

/-- The claims of a composition, one by one. -/
theorem claimsOf_eq_iff {c : Composition} {v : Claims} :
    claimsOf c = v ↔ c.path = v.path ∧ c.started.any (·.running) = v.job
      ∧ c.retints.countP (fun e => e.run.isSome) = v.retints ∧ (commitState c.commit == .latching) = v.latch := by
  obtain ⟨path, job, retints, latch⟩ := v
  simp only [claimsOf, Claims.mk.injEq]

/-- The holder of the path is the one claimant that runs (R47), said of a composition. -/
def Disciplined (c : Composition) : Prop := claimsOf c = heldBy c.path

theorem pathDiscipline_iff (s : State) : PathDiscipline s ↔ Disciplined s.comp := by
  have job : (∃ j, s.comp.started = some j ∧ j.running = true) ↔ (claimsOf s.comp).job = true := by
    simp [claimsOf, Option.any_eq_true]
  have latch : commitState s.comp.commit = .latching ↔ (claimsOf s.comp).latch = true := by simp [claimsOf]
  have path : (claimsOf s.comp).path = s.comp.path := rfl
  have retints : s.comp.retints.countP (fun e => e.run.isSome) = (claimsOf s.comp).retints := rfl
  rw [PathDiscipline, Disciplined, job, latch, retints, ← path]
  obtain ⟨path, job, retints, latch⟩ := claimsOf s.comp
  cases path <;> cases job <;> cases latch <;> simp [heldBy] <;> omega

theorem disciplined_of_heldBy {c : Composition} {p : PathHolder} (h : claimsOf c = heldBy p) : Disciplined c := by
  have hp : c.path = p := (congrArg Claims.path h).trans (by cases p <;> rfl)
  rw [Disciplined, hp, h]

theorem Disciplined.of_eq {c d : Composition} (h : Disciplined c) (he : claimsOf d = claimsOf c) : Disciplined d := by
  rw [Disciplined, he, show d.path = c.path from congrArg Claims.path he]
  exact h

theorem Disciplined.heldBy_of_path {c : Composition} (h : Disciplined c) {p : PathHolder} (hp : c.path = p) :
    claimsOf c = heldBy p := by
  rw [h, hp]

theorem eq_of_heldBy_job {p : PathHolder} (h : (heldBy p).job = true) : p = .composeJob := by
  cases p <;> simp [heldBy] at h ⊢

theorem eq_of_heldBy_latch {p : PathHolder} (h : (heldBy p).latch = true) : p = .latch := by
  cases p <;> simp [heldBy] at h ⊢

/-- A job that runs holds the path. -/
theorem Disciplined.running {c : Composition} (h : Disciplined c) {j : Job} (hj : c.started = some j)
    (hr : j.running = true) : claimsOf c = heldBy .composeJob := by
  have job : (heldBy c.path).job = true := by rw [← h]; simp [claimsOf, hj, hr]
  exact h.heldBy_of_path (eq_of_heldBy_job job)

/-- A latch that runs holds the path. -/
theorem Disciplined.latching {c : Composition} (h : Disciplined c) (hl : commitState c.commit = .latching) :
    claimsOf c = heldBy .latch := by
  have latch : (heldBy c.path).latch = true := by rw [← h]; simp [claimsOf, hl]
  exact h.heldBy_of_path (eq_of_heldBy_latch latch)

/-! ### What a change of the composition does to the claims -/

/-- The started job moves on, running as it was. -/
theorem claimsOf_started {c : Composition} {j j' : Job} (h : c.started = some j) (hr : j'.running = j.running) :
    claimsOf { c with started := some j' } = claimsOf c := by
  simp [claimsOf, h, hr]

/-- A release leaves each RUNNING retint job in the queue (R56). -/
theorem claimsOf_releaseFrame (slot : Nat) (c : Composition) : claimsOf (releaseFrame slot c) = claimsOf c := by
  simp only [claimsOf, releaseFrame, dropRetints_running]

theorem claimsOf_releaseAll (l : List Nat) (c : Composition) : claimsOf (releaseAll l c) = claimsOf c :=
  List.foldlRecOn (motive := fun d : Composition => claimsOf d = claimsOf c) l _ rfl
    fun d h i _ => (claimsOf_releaseFrame i d).trans h

/-- A retint job joins the queue WAITING (R45). -/
theorem claimsOf_enqueueRetint (slot gen : Nat) (c : Composition) : claimsOf (enqueueRetint slot gen c) = claimsOf c := by
  simp [claimsOf, enqueueRetint, List.countP_append]

/-- The number of RUNNING retint jobs, read from the marks that an operation on a line keeps (R98, R104). -/
theorem running_marks (l : List RetintEntry) :
    l.countP (fun e => e.run.isSome) = (l.map (fun e => (e.slot, e.gen, e.run.isSome))).countP (fun x => x.2.2) := by
  rw [List.countP_map]
  rfl

/-- The RUNNING retint job moves on (R98). -/
theorem claimsOf_withRun (run : RetintRun) (c : Composition) : claimsOf (withRun run c) = claimsOf c := by
  simp only [claimsOf, running_marks, withRun_marks, withRun_started, withRun_path, withRun_commit]

/-- A job that ends gives up the path if it ran (R44, R47). -/
theorem dropStarted_disciplined {c : Composition} {j : Job} (h : Disciplined c) (hj : c.started = some j) :
    Disciplined (dropStarted j c) := by
  cases hr : j.running with
  | true =>
    obtain ⟨-, -, others⟩ := claimsOf_eq_iff.mp (h.running hj hr)
    exact disciplined_of_heldBy (p := .free) (claimsOf_eq_iff.mpr ⟨if_pos hr, rfl, others⟩)
  | false =>
    refine h.of_eq ?_
    simp [claimsOf, dropStarted, hj, hr]

end Sys2Proof.Machine
end

section
/-! SUPPORT. The claims on the raster path under the events of the arbiter, of compose jobs, of retint jobs and of the latch
(R46 to R49, R51 to R55, R97 to R100, R117). -/

namespace Sys2Proof.Machine

/-! ### Ends and boundaries of a compose job (R48, R53 to R55) -/

theorem endAborted_disciplined {s : State} (h : Disciplined s.comp) {j : Job} (hj : s.comp.started = some j)
    (found : JobState) : Disciplined (endAborted j found s).comp :=
  dropStarted_disciplined (h.of_eq (claimsOf_releaseFrame j.slot s.comp)) hj

theorem endFailed_disciplined {s : State} (h : Disciplined s.comp) {j : Job} (hj : s.comp.started = some j)
    (reason : FailReason) (p : Pos) (pass : Pass) : Disciplined (endFailed j reason p pass s).comp :=
  dropStarted_disciplined (h.of_eq (claimsOf_releaseFrame j.slot s.comp)) hj

/-- A job suspended gives up the path (R48). -/
theorem suspended_disciplined {c : Composition} (h : claimsOf c = heldBy .composeJob) (j : Job) :
    Disciplined { c with started := some { j with running := false }, path := .free } := by
  obtain ⟨-, -, others⟩ := claimsOf_eq_iff.mp h
  exact disciplined_of_heldBy (p := .free) (claimsOf_eq_iff.mpr ⟨rfl, rfl, others⟩)

/-- A boundary aborts, suspends, or lets the job go on (R48). -/
theorem atBoundary_disciplined {go : State → State} {s : State} (h : claimsOf s.comp = heldBy .composeJob)
    (hgo : Disciplined (go s).comp) : Disciplined (atBoundary go s).comp := by
  unfold atBoundary
  split
  · exact disciplined_of_heldBy h
  · next j hj =>
    split
    · exact endAborted_disciplined (disciplined_of_heldBy h) hj _
    · split
      · exact suspended_disciplined h j
      · exact hgo

theorem closeJob_disciplined {s : State} (h : Disciplined s.comp) : Disciplined (closeJob s).comp := by
  unfold closeJob
  split
  · exact h
  · next j hj =>
    simp only [post_comp]
    split
    · exact dropStarted_disciplined (h.of_eq (claimsOf_enqueueRetint _ _ _)) hj
    · exact dropStarted_disciplined (h.of_eq rfl) hj

/-! ### The passes (R21, R51, R52, R95) -/

theorem beginOverlay_disciplined {s : State} (h : claimsOf s.comp = heldBy .composeJob) :
    Disciplined (beginOverlay s).comp := by
  unfold beginOverlay
  split
  · exact disciplined_of_heldBy h
  · next j hj =>
    simp only
    split
    · exact atBoundary_disciplined h (closeJob_disciplined (disciplined_of_heldBy h))
    · exact disciplined_of_heldBy h

theorem runningJob_running {s : State} {j : Job} (h : runningJob s = some j) : j.running = true := by
  unfold runningJob at h
  obtain ⟨i, hi, hr⟩ := Option.bind_eq_some_iff.mp h
  split at hr
  · next hrun =>
    cases hr
    exact hrun
  · cases hr

/-- The running job holds the path (R47). -/
theorem Disciplined.heldBy_job {s : State} (h : Disciplined s.comp) {j : Job} (hj : runningJob s = some j) :
    claimsOf s.comp = heldBy .composeJob :=
  h.running (runningJob_started hj) (runningJob_running hj)

/-- A running job that moves on holds the path still. -/
theorem heldBy_withJob {s : State} (h : claimsOf s.comp = heldBy .composeJob) {j : Job} (hj : s.comp.started = some j)
    {j' : Job} (hr : j'.running = j.running) : claimsOf (withJob j' s).comp = heldBy .composeJob :=
  (claimsOf_started hj hr).trans h

theorem replayEnd_disciplined {s : State} (h : Disciplined s.comp) : Disciplined (replayEnd s).comp := by
  unfold replayEnd
  split
  · exact h
  · next j hj =>
    have hs := runningJob_started hj
    have held := h.heldBy_job hj
    split
    · simp only
      split
      · exact endFailed_disciplined h hs _ _ _
      · next st _ =>
        split
        · exact atBoundary_disciplined (heldBy_withJob held hs rfl) (beginOverlay_disciplined (heldBy_withJob held hs rfl))
        · exact atBoundary_disciplined (heldBy_withJob held hs rfl)
            (disciplined_of_heldBy (heldBy_withJob held hs rfl))
    · exact h

theorem finishLine_disciplined {s : State} (h : claimsOf s.comp = heldBy .composeJob) {i : Job}
    (hi : s.comp.started = some i) {j : Job} (hr : j.running = i.running) (w : WorkingLine) :
    Disciplined (finishLine j w s).comp := by
  unfold finishLine
  simp only
  split
  · exact atBoundary_disciplined (heldBy_withJob h hi hr) (beginOverlay_disciplined (heldBy_withJob h hi hr))
  · exact atBoundary_disciplined (heldBy_withJob h hi hr) (disciplined_of_heldBy (heldBy_withJob h hi hr))

theorem lineSet_disciplined {s : State} (h : Disciplined s.comp) : Disciplined (lineSet s).comp := by
  unfold lineSet
  split
  · exact h
  · next j hj =>
    have hs := runningJob_started hj
    have held := h.heldBy_job hj
    split
    · simp only
      split
      · exact beginOverlay_disciplined (heldBy_withJob held hs rfl)
      · split
        · exact endFailed_disciplined h hs _ _ _
        · split
          · exact finishLine_disciplined held hs (by rfl) _
          · exact disciplined_of_heldBy (heldBy_withJob held hs rfl)
    · exact h

theorem jobSpanDrawn_disciplined {s : State} (h : claimsOf s.comp = heldBy .composeJob) {j : Job}
    (hs : s.comp.started = some j) : Disciplined (jobSpanDrawn j s).comp := by
  unfold jobSpanDrawn
  split
  · next w k hp =>
    split
    · exact finishLine_disciplined h hs rfl w
    · have drawn := drawEntries_drawn j.spec.rect (spanEntries j.spanLength k w.entries) s
      have held : claimsOf (withJob { j with phase := .drawing w (k + 1) }
          (drawEntries j.spec.rect (spanEntries j.spanLength k w.entries) s)).comp = heldBy .composeJob :=
        heldBy_withJob (j := j) (by rw [drawn.comp]; exact h) (by rw [drawn.comp]; exact hs) rfl
      simp only [afterSpan]
      split
      · exact atBoundary_disciplined held (finishLine_disciplined held rfl rfl w)
      · exact atBoundary_disciplined held (disciplined_of_heldBy held)
  · exact disciplined_of_heldBy h

theorem claimsOf_ensureSnapshot (j : Job) (s : State) :
    claimsOf (ensureSnapshot j s).comp = claimsOf s.comp ∧ (ensureSnapshot j s).comp.started = s.comp.started := by
  unfold ensureSnapshot
  simp only
  split <;> exact ⟨rfl, rfl⟩

theorem overlayLineDone_disciplined {s : State} (h : Disciplined s.comp) : Disciplined (overlayLineDone s).comp := by
  unfold overlayLineDone
  split
  · exact h
  · next j hj =>
    obtain ⟨hclaims, hstarted⟩ := claimsOf_ensureSnapshot j s
    have snap := hclaims.trans (h.heldBy_job hj)
    have hs := hstarted.trans (runningJob_started hj)
    split
    · simp only
      split
      · exact atBoundary_disciplined snap (closeJob_disciplined (disciplined_of_heldBy snap))
      · next i _ _ line _ =>
        have moved : claimsOf (overlayJobLine j line i (ensureSnapshot j s)).comp = heldBy .composeJob := by
          have drawn := finishOverlayLine_drawn (frameAt (ensureSnapshot j s).comp j.slot) line
            (jobLineWork j (frameAt (ensureSnapshot j s).comp j.slot) line (ensureSnapshot j s)) (ensureSnapshot j s)
          exact heldBy_withJob (j := j) (by rw [drawn.comp]; exact snap) (by rw [drawn.comp]; exact hs) rfl
        refine atBoundary_disciplined moved ?_
        split
        · exact atBoundary_disciplined moved (closeJob_disciplined (disciplined_of_heldBy moved))
        · exact disciplined_of_heldBy moved
    · exact h

/-! ### Retint jobs and the drawing commands (R97, R98, R100, R104) -/

theorem claimsOf_retintOp {op : RetintRun → LineRec → State → State} (hop : ∀ run line s, RetintWork run s (op run line s))
    (s : State) : claimsOf (retintOp op s).comp = claimsOf s.comp := by
  unfold retintOp
  split
  · rfl
  · next e run _ =>
    split
    · next line _ =>
      rcases hop run line s with hc | ⟨run', -, hc⟩ <;> rw [hc]
      exact claimsOf_withRun _ _
    · rfl

theorem endRetint_disciplined {s : State} (h : claimsOf s.comp = heldBy .retintJob) (e : RetintEntry) (run : RetintRun) :
    Disciplined (endRetint e run s).comp := by
  have left : claimsOf { s.comp with retints := s.comp.retints.filter (fun x => x.run.isNone), path := .free }
      = heldBy .free := by
    have none : (s.comp.retints.filter (fun x => x.run.isNone)).countP (fun e => e.run.isSome) = 0 :=
      List.countP_eq_zero.mpr fun e he => by simpa using (List.mem_filter.mp he).2
    obtain ⟨-, job, -, latch⟩ := claimsOf_eq_iff.mp h
    exact claimsOf_eq_iff.mpr ⟨rfl, job, none, latch⟩
  simp only [endRetint, post_comp]
  split
  · exact disciplined_of_heldBy left
  · exact disciplined_of_heldBy ((claimsOf_enqueueRetint _ _ _).trans left)

theorem retintLineRedrawn_disciplined {s : State} (h : Disciplined s.comp) : Disciplined (retintLineRedrawn s).comp := by
  cases hr : runningRetint s with
  | none =>
    rw [retintLineRedrawn_none hr]
    exact h
  | some x =>
    obtain ⟨o, ho, heq⟩ := retintLineRedrawn_some (e := x.1) (run := x.2) hr
    obtain ⟨hp, -, -⟩ := runningRetint_some (e := x.1) (run := x.2) hr
    rw [heq]
    split
    · exact endRetint_disciplined (by rw [ho.comp]; exact h.heldBy_of_path hp) _ _
    · refine h.of_eq ?_
      simp only [ho.comp]
      exact claimsOf_withRun _ _

theorem pagePaperFill_disciplined {s : State} (h : Disciplined s.comp) : Disciplined (pagePaperFill s).comp := by
  unfold pagePaperFill
  split
  · exact h.of_eq (claimsOf_retintOp retintBandFilled_work s)
  · next j hj =>
    split
    · exact h.of_eq (claimsOf_started (runningJob_started hj) rfl)
    · exact h

theorem glyphSpanDrawn_disciplined {s : State} (h : Disciplined s.comp) : Disciplined (glyphSpanDrawn s).comp := by
  unfold glyphSpanDrawn
  split
  · exact h.of_eq (claimsOf_retintOp retintSpanDrawn_work s)
  · next j hj => exact jobSpanDrawn_disciplined (h.heldBy_job hj) (runningJob_started hj)

/-- What an overlay operation does leaves the claims alone (R104). -/
theorem OverlayWork.claimsOf {s t : State} (h : OverlayWork s t) : Machine.claimsOf t.comp = Machine.claimsOf s.comp := by
  obtain ⟨d, -, -, hp, hc, -, -, -, hm, hs⟩ := h
  have job : ∀ o : Option Job, o.any (·.running)
      = (o.map (fun j => (j.spec, j.running, j.slot, j.phase))).any (fun x => x.2.1) := fun o => by cases o <;> rfl
  simp only [Machine.claimsOf, running_marks, job, hp, hc, hm, hs]

/-! ### The latch (R46, R117, R118) -/

theorem endLatch_disciplined {s : State} (h : (claimsOf s.comp).job = false) (hn : (claimsOf s.comp).retints = 0)
    (c : CommitSpec) (copied : List Nat) (deferred : Nat) : Disciplined (endLatch c copied deferred s).comp := by
  exact disciplined_of_heldBy (p := .free) (claimsOf_eq_iff.mpr ⟨rfl, h, hn, rfl⟩)

theorem continueLatch_disciplined {s : State} (hp : s.comp.path = .latch) (h : (claimsOf s.comp).job = false)
    (hn : (claimsOf s.comp).retints = 0) (c : CommitSpec) (next : Nat) (copied : List Nat) (deferred : Nat) :
    Disciplined (continueLatch c next copied deferred s).comp := by
  unfold continueLatch
  split
  · exact disciplined_of_heldBy (p := .latch) (claimsOf_eq_iff.mpr ⟨hp, h, hn, rfl⟩)
  · exact endLatch_disciplined h hn c copied deferred

theorem latchTile_disciplined {s : State} (h : Disciplined s.comp) : Disciplined (latchTile s).comp := by
  unfold latchTile
  split
  · next c next copied deferred hc =>
    have held := h.latching (by rw [hc]; rfl)
    have hp : s.comp.path = .latch := congrArg Claims.path held
    have job : (claimsOf s.comp).job = false := by rw [held]; rfl
    have retints : (claimsOf s.comp).retints = 0 := by rw [held]; rfl
    split
    · exact endLatch_disciplined job retints c copied deferred
    · next i _ =>
      split
      · exact continueLatch_disciplined (s := changeTile i (deferTile c) s) hp job retints ..
      · exact continueLatch_disciplined
          (s := { changeTile i copiedTile s with planes := copyTilePixels (tileCols s) i s.planes }) hp job retints ..
  · exact h

/-! ### The arbiter (R47, R49, R97) -/

/-- The oldest WAITING job runs: one job more (R97). -/
theorem runEntry_running (run : RetintRun) {l : List RetintEntry} (h : ∃ e ∈ l, e.run.isNone = true) :
    (runEntry run l).countP (fun e => e.run.isSome) = l.countP (fun e => e.run.isSome) + 1 := by
  induction l with
  | nil => simp at h
  | cons a l ih =>
    unfold runEntry
    split
    · next hn =>
      rw [Option.isNone_iff_eq_none] at hn
      simp [hn]
    · next hn =>
      obtain ⟨e, he, hen⟩ := h
      rcases List.mem_cons.mp he with rfl | he
      · exact absurd hen hn
      · rw [List.countP_cons, List.countP_cons, ih ⟨e, he, hen⟩]
        omega

theorem startRetint_disciplined {s : State} (h : claimsOf s.comp = heldBy .free) {e : RetintEntry}
    (he : waitingRetint s.comp = some e) : Disciplined (startRetint e s).comp := by
  have waits : ∃ e ∈ s.comp.retints, e.run.isNone = true :=
    ⟨e, List.mem_of_find?_eq_some he, by simpa using List.find?_some he⟩
  obtain ⟨-, job, retints, latch⟩ := claimsOf_eq_iff.mp h
  exact disciplined_of_heldBy (p := .retintJob)
    (claimsOf_eq_iff.mpr ⟨rfl, job, (runEntry_running _ waits).trans (congrArg (· + 1) retints), latch⟩)

theorem claimsOf_evict (c : Composition) : claimsOf (evict c).1 = claimsOf c := by
  unfold evict
  split
  · exact claimsOf_releaseFrame _ c
  · rfl

theorem startJob_disciplined {s : State} (h : claimsOf s.comp = heldBy .free) (j : JobSpec) (rest : List JobSpec) :
    Disciplined (startJob j rest s).comp := by
  have others := fun l => (claimsOf_eq_iff.mp
    ((claimsOf_evict (releaseAll l s.comp)).trans ((claimsOf_releaseAll l s.comp).trans h))).2.2
  exact disciplined_of_heldBy (p := .composeJob) (claimsOf_eq_iff.mpr ⟨rfl, rfl, others _⟩)

theorem resumed_disciplined {c : Composition} (h : claimsOf c = heldBy .free) (j : Job) :
    Disciplined { c with started := some { j with running := true }, path := .composeJob } := by
  obtain ⟨-, -, others⟩ := claimsOf_eq_iff.mp h
  exact disciplined_of_heldBy (p := .composeJob) (claimsOf_eq_iff.mpr ⟨rfl, rfl, others⟩)

theorem rasterPathGrant_disciplined {s : State} (h : Disciplined s.comp) : Disciplined (rasterPathGrant s).comp := by
  unfold rasterPathGrant
  split
  · next hfree =>
    simp only [Bool.and_eq_true, beq_iff_eq] at hfree
    have free := h.heldBy_of_path hfree.2
    split
    · next e he => exact startRetint_disciplined free he
    · split
      · exact continueLatch_disciplined (s := { s with comp := { s.comp with path := .latch } }) rfl
          (congrArg Claims.job free) (congrArg Claims.retints free) ..
      · split
        · next j hj => exact resumed_disciplined free j
        · split
          · exact startJob_disciplined free _ _
          · exact h
  · exact h

end Sys2Proof.Machine
end

section
/-! SUPPORT. Every request's owner and every event keeps the raster path with the one claimant that runs, and so does every
step (O56). -/

namespace Sys2Proof.Machine

/-! ### Requests (R10, R43, R55, R57, R83 to R85, R116, R169) -/

theorem takeFlowClear_claims (slot : Nat) (s : State) : claimsOf (takeFlowClear slot s).1.comp = claimsOf s.comp := by
  unfold takeFlowClear
  simp only
  iterate 2 (split; · rfl)
  exact claimsOf_releaseAll _ _

theorem takeFrameRelease_claims (slot gen : Nat) (s : State) :
    claimsOf (takeFrameRelease slot gen s).1.comp = claimsOf s.comp := by
  unfold takeFrameRelease
  split
  · rfl
  · exact claimsOf_releaseFrame _ _

theorem takeCompose_claims (f : ComposeFields) (s : State) : claimsOf (takeCompose f s).1.comp = claimsOf s.comp := by
  unfold takeCompose
  iterate 5 (split; · rfl)
  rfl

/-- A commit joins an EMPTY slot, so no latch runs before or after (R46, R116). -/
theorem takeCommit_claims (mode cls : Nat) (rect : Option TileRect) (s : State) :
    claimsOf (takeCommit mode cls rect s).1.comp = claimsOf s.comp := by
  unfold takeCommit
  split
  · rfl
  · split
    · split
      · rfl
      · split
        · rfl
        · next hc =>
          have empty : s.comp.commit = .empty := by simpa using hc
          simp only [claimsOf, empty]
          rfl
    · rfl

theorem takeComposeAbort_disciplined (tag : Nat) {s : State} (h : Disciplined s.comp) :
    Disciplined (takeComposeAbort tag s).1.comp := by
  unfold takeComposeAbort
  split
  · exact h.of_eq rfl
  · split
    · exact h
    · next j hj =>
      split
      · exact h
      · split
        · exact h.of_eq (claimsOf_started (j' := { j with abortAsked := true }) hj rfl)
        · exact endAborted_disciplined h hj _

theorem reachFrames_claims (flow : Nat) (old new : Option (Pos × Pos)) (c : Composition) :
    claimsOf (reachFrames flow old new c).1 = claimsOf c := by
  refine reachFrames_keeps (P := fun d => claimsOf d = claimsOf c) flow old new (fun slot d _ h => ?_) rfl
  rcases reachFrame_cases flow old new slot d with he | ⟨_, _, he | ⟨-, -, -, he⟩⟩ <;> rw [he]
  · exact h
  · exact h
  · exact (claimsOf_enqueueRetint _ _ _).trans h

/-- A note request that reaches the records changes the notes besides. -/
theorem reached_claims (flow : Nat) (old new : Option (Pos × Pos)) (s : State) (l : List Note) :
    claimsOf ({ s with notes := l, comp := (reachFrames flow old new s.comp).1 } : State).comp = claimsOf s.comp := by
  have reached := reachFrames_claims flow old new s.comp
  generalize (reachFrames flow old new s.comp).1 = c at reached
  exact reached

theorem takeNoteAdd_claims (f : NoteFields) (s : State) : claimsOf (takeNoteAdd f s).1.comp = claimsOf s.comp := by
  unfold takeNoteAdd
  split
  · rfl
  · iterate 4 (split; · rfl)
    exact reached_claims _ _ _ s _

theorem takeNoteChange_claims (id : Nat) (c : NoteChanges) (s : State) :
    claimsOf (takeNoteChange id c s).1.comp = claimsOf s.comp := by
  unfold takeNoteChange
  iterate 2 (split; · rfl)
  split
  · rfl
  · simp only
    split
    · rfl
    · exact reached_claims _ _ _ s _

theorem takeNoteRemove_claims (id : Nat) (s : State) : claimsOf (takeNoteRemove id s).1.comp = claimsOf s.comp := by
  unfold takeNoteRemove
  iterate 2 (split; · rfl)
  exact reached_claims _ _ _ s _

theorem takeActivate_claims (s : State) : claimsOf (takeActivate s).1.comp = claimsOf s.comp := by
  unfold takeActivate
  split
  · rfl
  · obtain ⟨u, lanes, ⟨-, rfl⟩ | ⟨-, rfl⟩, he⟩ := activateStandby_cases s <;> simp only [he]
    · exact claimsOf_releaseAll _ s.comp
    · rfl

theorem takeStandby_comp (s : State) : (takeStandby s).1.comp = s.comp := by
  unfold takeStandby
  iterate 2 (split; · rfl)
  rfl

/-- An owner's work keeps the path's discipline. -/
theorem ownerState_disciplined (r : Request) {s : State} (h : Disciplined s.comp) : Disciplined (ownerState r s).comp := by
  have same : (ownerState r s).comp = s.comp → Disciplined (ownerState r s).comp := fun hc => hc ▸ h
  cases r with
  | status | get | flowInfo | styleRead | fontList | glyphGet | frameInfo | locate | noteList | queueInfo => exact h
  | reset | setTemperature | readNotices | clearNotices => exact h
  | set id v => exact same (takeSet_comp id v s)
  | activate => exact h.of_eq (takeActivate_claims s)
  | standby => exact same (takeStandby_comp s)
  | flowAppend slot l => exact same (takeFlowAppend_comp slot l s)
  | flowClear slot => exact h.of_eq (takeFlowClear_claims slot s)
  | styleDefine id f => exact same (takeStyleDefine_comp id f s)
  | fontBegin slot header => exact same (takeFontBegin_work slot header s).comp
  | glyphPut slot i l => exact same (takeGlyphPut_work slot i l s).comp
  | fontEnd slot => exact same (takeFontEnd_work slot s).comp
  | fontDrop slot => exact same (takeFontDrop_work slot s).comp
  | fontLock slot => exact same (takeFontLock_work slot s).comp
  | fontCheck slot => exact same (takeFontCheck_work slot s).comp
  | protectRaise b => exact same (takeProtectRaise_work b s).comp
  | storeWipe => exact same (takeStoreWipe_work s).comp
  | compose f => exact h.of_eq (takeCompose_claims f s)
  | composeAbort t => exact takeComposeAbort_disciplined t h
  | frameRelease slot gen => exact h.of_eq (takeFrameRelease_claims slot gen s)
  | noteAdd n => exact h.of_eq (takeNoteAdd_claims n s)
  | noteChange id c => exact h.of_eq (takeNoteChange_claims id c s)
  | noteRemove id => exact h.of_eq (takeNoteRemove_claims id s)
  | commit m c r => exact h.of_eq (takeCommit_claims m c r s)
  | refresh m c r => exact same (takeRefresh_comp m c r s)

/-! ### Events -/

theorem LinkOnly.disciplined {s t : State} (h : LinkOnly s t) (hs : Disciplined s.comp) : Disciplined t.comp := by
  rw [h.comp]
  exact hs

theorem OperationEnds.disciplined {s t : State} (h : OperationEnds s t) (hs : Disciplined s.comp) : Disciplined t.comp := by
  rcases h with rfl | ⟨a, u, -, hc, rfl⟩
  · exact hs
  · rw [endOperation_comp, hc]
    exact hs

theorem resetPart_disciplined (c : ResetCause) (s : State) : Disciplined (resetPart c s).comp := rfl

theorem portEvents_disciplined (l : List PortEvent) {s : State} (h : Disciplined s.comp) :
    Disciplined (portEvents l s).comp :=
  portEvents_keeps_blocks (P := fun t => Disciplined t.comp) LinkOnly.disciplined resetPart_disciplined l h

theorem replySent_disciplined {s : State} (h : Disciplined s.comp) : Disciplined (replySent s).comp := by
  unfold replySent
  split
  · exact h
  · exact portEvents_disciplined _ h

theorem startupScanEnd_comp (s : State) : (startupScanEnd s).comp = s.comp := by
  unfold startupScanEnd
  split <;> rfl

/-- Every event keeps the path's discipline. -/
theorem eventState_disciplined (i : Instr) {s : State} (h : Disciplined s.comp) : Disciplined (eventState i s).comp := by
  have same : (eventState i s).comp = s.comp → Disciplined (eventState i s).comp := fun hc => hc ▸ h
  cases i with
  | frameReceived l => exact portEvents_disciplined l h
  | abandonedFrame second => exact portEvents_disciplined [.byte second] h
  | handOver =>
    exact handOver_keeps_blocks (P := fun t => Disciplined t.comp) LinkOnly.disciplined
      (fun r _ => ownerState_disciplined r h) h
  | replySent => exact replySent_disciplined h
  | fontEndComplete => exact (fontEndComplete_ends s).disciplined h
  | fontDropComplete => exact (fontDropComplete_ends s).disciplined h
  | fontLockComplete => exact (fontLockComplete_ends s).disciplined h
  | fontCheckComplete => exact (fontCheckComplete_ends s).disciplined h
  | protectRaiseComplete => exact (protectRaiseComplete_ends s).disciplined h
  | storeWipeComplete => exact (storeWipeComplete_ends s).disciplined h
  | writeEntryProgrammed => exact same (writeEntryProgrammed_work s).comp
  | rasterPathGrant => exact rasterPathGrant_disciplined h
  | replayEnd => exact replayEnd_disciplined h
  | pagePaperFill => exact pagePaperFill_disciplined h
  | lineSet => exact lineSet_disciplined h
  | glyphSpanDrawn => exact glyphSpanDrawn_disciplined h
  | overlayLineDone => exact overlayLineDone_disciplined h
  | retintLineRedrawn => exact retintLineRedrawn_disciplined h
  | latchTile => exact latchTile_disciplined h
  | panelFrameBoundary => exact same (panelFrameBoundary_comp s)
  | laneFrame lane => exact same (laneFrame_comp lane s)
  | dispatchScan => exact same (dispatchScan_comp s)
  | updateCompletion lane => exact same (updateCompletion_comp lane s)
  | deghostExpiry => exact same (deghostExpiry_comp s)
  | temperatureStale => exact same (temperatureStale_comp s)
  | resetPin => exact resetPart_disciplined .pin s
  | startupScanEnd => exact same (startupScanEnd_comp s)
  | _ => exact h

/-! ### Steps -/

theorem Stepped.disciplined {s t : State} (h : Stepped s t) (hs : Disciplined s.comp) : Disciplined t.comp := by
  cases h with
  | idles => exact hs.of_eq (idle_work s).claimsOf
  | presents tag r =>
    exact present_keeps_blocks (P := fun u => Disciplined u.comp) LinkOnly.disciplined
      (fun q => ownerState_disciplined q hs) tag r hs
  | takes i => exact eventState_disciplined i hs

/-- Settles O56: a step over a queue of commands idles, presents a request or takes an event, and what each does to the claims
on the path keeps its holder the one that runs. -/
theorem pathDisciplineKept : Obligations.PathDisciplineKept := by
  intro s t hs h
  obtain ⟨rest, h⟩ := step_stepped h
  exact (pathDiscipline_iff t).mpr (h.disciplined ((pathDiscipline_iff s).mp hs))

end Sys2Proof.Machine
end

section
/-! SUPPORT. What the Composition Controller answers to COMPOSE, COMPOSE_ABORT and FRAME_RELEASE (R43, R55 to R57). -/

namespace Sys2Proof.Machine

/-! ### Requests of a ready part -/

theorem exec_compose {s : State} (h : Ready s) (tag : Byte) (f : ComposeFields) :
    exec (.compose tag f) s = .next (decided tag 0x30#8 (takeCompose f s)) :=
  congrArg Host.Outcome.next (present_ready h tag (.compose f))

theorem exec_composeAbort {s : State} (h : Ready s) (tag : Byte) (t : Nat) :
    exec (.composeAbort tag t) s = .next (decided tag 0x31#8 (takeComposeAbort t s)) :=
  congrArg Host.Outcome.next (present_ready h tag (.composeAbort t))

theorem exec_frameRelease {s : State} (h : Ready s) (tag : Byte) (slot gen : Nat) :
    exec (.frameRelease tag slot gen) s = .next (decided tag 0x32#8 (takeFrameRelease slot gen s)) :=
  congrArg Host.Outcome.next (present_ready h tag (.frameRelease slot gen))

theorem ReadyActive.ready {s : State} (h : ReadyActive s) : Ready s := ⟨h.1, by rw [h.2]; decide⟩

/-! ### COMPOSE (R43) -/

theorem composeInRange_iff (f : ComposeFields) :
    composeInRange f = true ↔
      1 ≤ f.tag ∧ f.tag ≤ 255 ∧ f.flow ≤ 3 ∧ f.style ≤ 31 ∧ f.start.run ≤ 16384 ∧ f.start.off ≤ 31 := decide_eq_true_iff

theorem rectUnacceptable_iff (r : PRect) : rectUnacceptable r = true ↔ r.w < 16 ∨ r.h < 4 := decide_eq_true_iff

/-- A tag is in use by a queued or by the started job (R43). -/
theorem jobTagUsed_iff (c : Composition) (tag : Nat) :
    jobTagUsed c tag = true ↔ (∃ j ∈ c.jobs, j.tag = tag) ∨ ∃ j, c.started = some j ∧ j.spec.tag = tag := by
  simp [jobTagUsed, Option.any_eq_true]

section
variable {f : ComposeFields} {s : State}

theorem takeCompose_inactive (h : s.settings.power ≠ .active) : takeCompose f s = (s, .notActive, .none) :=
  if_pos (by simpa using h)

/-- Check 2: the fields in range (R43). -/
theorem takeCompose_outOfRange (ha : s.settings.power = .active) (h : ¬composeInRange f = true) :
    takeCompose f s = (s, .badArgument, .none) := by
  simp [takeCompose, ha, h]

/-- In ACTIVE with the fields in range, the checks left are of the rectangle, the tag and the queue (R43). -/
theorem takeCompose_inRange (ha : s.settings.power = .active) (h : composeInRange f = true) :
    takeCompose f s
      = if rectUnacceptable (composeRect f s) then (s, .badArgument, .none)
        else if jobTagUsed s.comp f.tag then (s, .exists_, .none)
        else if s.comp.jobs.length ≥ 4 then (s, .full, .none)
        else
          ({ s with
              comp :=
                { s.comp with
                  jobs :=
                    s.comp.jobs ++ [⟨f.tag, f.flow, f.start, f.style, composeRect f s, f.marginLeft, f.marginRight⟩] } },
            .ok, .compose f.tag (composeRect f s)) := by
  simp [takeCompose, ha, h, Config.composeQueueMax]

end

/-- Settles O27: the checks of COMPOSE in their order, and what an accepted one appends. -/
theorem composeQueuesJob : Obligations.ComposeQueuesJob := by
  intro s tag f r hr
  obtain rfl : r = composeRect f s := hr
  refine ⟨fun hs hp => ?_, fun hs hbad => ?_, fun hs h1 h2 h3 h4 h5 h6 => ?_⟩
  · rw [exec_compose hs, takeCompose_inactive (by rw [hp]; decide), decided_eq]
  · have outside : ¬composeInRange f = true := by
      rw [composeInRange_iff]
      omega
    rw [exec_compose hs.ready, takeCompose_outOfRange hs.2 outside, decided_eq]
  · rw [exec_compose hs.ready, takeCompose_inRange hs.2 ((composeInRange_iff f).mpr ⟨h1, h2, h3, h4, h5, h6⟩)]
    refine ⟨fun hsmall => ?_, fun hw hh => ?_⟩
    · rw [if_pos ((rectUnacceptable_iff _).mpr hsmall), decided_eq]
    rw [if_neg (fun hsmall => by have := (rectUnacceptable_iff _).mp hsmall; omega)]
    refine ⟨fun used => ?_, fun noQueued noStarted => ?_⟩
    · rw [if_pos ((jobTagUsed_iff _ _).mpr used), decided_eq]
    have unused : ¬jobTagUsed s.comp f.tag = true := by
      rw [jobTagUsed_iff]
      rintro (⟨j, hj, ht⟩ | ⟨j, hj, ht⟩)
      · exact noQueued j hj ht
      · exact noStarted j hj ht
    rw [if_neg unused]
    refine ⟨fun full => ?_, fun room => ?_⟩
    · rw [if_pos full, decided_eq]
    · rw [if_neg (Nat.not_le.mpr room), decided_eq]

/-! ### COMPOSE_ABORT (R55) -/

section
variable {s : State} {t : Nat}

theorem takeComposeAbort_queued {j : JobSpec} (h : s.comp.jobs.find? (fun j => j.tag == t) = some j) :
    takeComposeAbort t s
      = (post (.composeAborted t .queued 0 j.start none)
          { s with comp := { s.comp with jobs := s.comp.jobs.filter (fun j => j.tag != t) } },
        .ok, .jobState .queued) := by
  simp only [takeComposeAbort, h]

/-- With no job of the tag queued or started, there is none to abort (R55). -/
theorem takeComposeAbort_notFound (h : ∀ j ∈ s.comp.jobs, j.tag ≠ t) (hn : ∀ j, s.comp.started = some j → j.spec.tag ≠ t) :
    takeComposeAbort t s = (s, .notFound, .none) := by
  have none : s.comp.jobs.find? (fun j => j.tag == t) = none := List.find?_eq_none.mpr (by simpa using h)
  simp only [takeComposeAbort, none]
  split
  · rfl
  · next j hj => exact if_pos (hn j hj)

/-- With no job of the tag queued, the started job of the tag is told to abort or ends (R55). -/
theorem takeComposeAbort_started (h : ∀ j ∈ s.comp.jobs, j.tag ≠ t) {j : Job} (hj : s.comp.started = some j)
    (ht : j.spec.tag = t) :
    takeComposeAbort t s
      = if j.running then (withJob { j with abortAsked := true } s, .ok, .jobState .running)
        else (endAborted j .suspended s, .ok, .jobState .suspended) := by
  have none : s.comp.jobs.find? (fun j => j.tag == t) = none := List.find?_eq_none.mpr (by simpa using h)
  simp only [takeComposeAbort, none, hj, ht, ne_eq, not_true_eq_false, if_false]

end

/-- A job that ends ABORTED: its notice, its released record, and what stays of the composition (R55, R56). -/
theorem endAborted_eq (j : Job) (found : JobState) (s : State) :
    endAborted j found s
      = post
        (.composeAborted j.spec.tag found (frameAt s.comp j.slot).lines.length
          (((frameAt s.comp j.slot).lines.getLast?.map (·.stop)).getD j.spec.start)
          (some ⟨j.slot, j.gen, j.overlapped, j.evicted⟩))
        { s with comp := dropStarted j (releaseFrame j.slot s.comp) } := by
  rw [endAborted, resumePosition_eq]
  rfl

/-- A record released leaves the other slots as they are, whether the slot is there or not (R56). -/
theorem frameAt_releaseFrame_other {slot i : Nat} (h : i ≠ slot) (c : Composition) :
    frameAt (releaseFrame slot c) i = frameAt c i := by
  simp [frameAt, releaseFrame, List.getElem?_set_ne h.symm]

/-- Settles O28: the request finds a queued job, or the started one by whether it runs. -/
theorem composeAbortByState : Obligations.ComposeAbortByState := by
  intro s tag t hs
  rw [exec_composeAbort hs]
  refine ⟨fun j hj => ?_, fun noQueued => ⟨fun j hj ht hr => ?_, fun j hj ht hr => ?_, fun other => ?_⟩⟩
  · rw [takeComposeAbort_queued hj, decided_eq]
  · rw [takeComposeAbort_started noQueued hj ht, if_pos hr, decided_eq]
    rfl
  · refine ⟨dropStarted j (releaseFrame j.slot s.comp), ?_, rfl, rfl, if_neg (by simp [hr]), rfl, fun hlt => ?_,
      fun i hi => frameAt_releaseFrame_other hi s.comp⟩
    · rw [takeComposeAbort_started noQueued hj ht, if_neg (by simp [hr]), decided_eq, endAborted_eq, ht]
    · exact (frameAt_releaseFrame j.slot j.slot s.comp hlt).trans (if_pos rfl)
  · rw [takeComposeAbort_notFound noQueued other, decided_eq]

/-! ### The checks of a request that names a record (R57, R58, R79) -/

section
variable {slot gen : Nat} {s : State}

theorem frameRefusal_badSlot (h : 8 ≤ slot) : frameRefusal slot gen s = some .badArgument := if_pos h

theorem frameRefusal_notFound (h : slot < 8) (hn : (frameAt s.comp slot).state = .free ∨ (frameAt s.comp slot).gen ≠ gen) :
    frameRefusal slot gen s = some .notFound :=
  (if_neg (Nat.not_le.mpr h)).trans (if_pos hn)

theorem frameRefusal_opened (h : slot < 8) (ho : (frameAt s.comp slot).state = .opened)
    (hg : (frameAt s.comp slot).gen = gen) : frameRefusal slot gen s = some .busy := by
  simp [frameRefusal, Config.frameSlots, Nat.not_le.mpr h, ho, hg]

theorem frameRefusal_live (h : slot < 8) (hl : (frameAt s.comp slot).state = .live)
    (hg : (frameAt s.comp slot).gen = gen) : frameRefusal slot gen s = none := by
  simp [frameRefusal, Config.frameSlots, Nat.not_le.mpr h, hl, hg]

end

/-! ### FRAME_RELEASE (R56, R57) -/

theorem takeFrameRelease_refused {slot gen : Nat} {s : State} {e : Status} (h : frameRefusal slot gen s = some e) :
    takeFrameRelease slot gen s = (s, e, .none) := by
  rw [takeFrameRelease, h]

theorem takeFrameRelease_live {slot gen : Nat} {s : State} (h : frameRefusal slot gen s = none) :
    takeFrameRelease slot gen s = ({ s with comp := releaseFrame slot s.comp }, .ok, .none) := by
  rw [takeFrameRelease, h]

/-- A retint job of another record stays as it is (R56). -/
theorem mem_dropRetints_other {slot gen : Nat} {l : List RetintEntry} {e : RetintEntry} (he : e ∈ l)
    (hne : e.slot ≠ slot ∨ e.gen ≠ gen) : e ∈ dropRetints slot gen l := by
  have other : (e.slot == slot && e.gen == gen) = false := by simpa [← not_and_or] using hne
  exact List.mem_map.mpr ⟨e, List.mem_filter.mpr ⟨he, by simp [other]⟩, by simp [other]⟩

/-- A retint job of the released record that is left is a RUNNING one told to stop (R56). -/
theorem stopped_of_mem_dropRetints {slot gen : Nat} {l : List RetintEntry} {e : RetintEntry}
    (h : e ∈ dropRetints slot gen l) (hs : e.slot = slot) (hg : e.gen = gen) : ∃ r, e.run = some r ∧ r.released = true := by
  rcases mem_dropRetints h with ⟨-, hne⟩ | ⟨e0, -, r, -, -, -, rfl⟩
  · exact absurd ⟨hs, hg⟩ hne
  · exact ⟨_, rfl, rfl⟩

/-- Settles O29: the release of a LIVE record, and the refusals in their order. -/
theorem frameReleaseFreesSlot : Obligations.FrameReleaseFreesSlot := by
  intro s tag slot gen hs
  rw [exec_frameRelease hs]
  refine ⟨fun hlt hlen hl hg => ?_, fun h => ?_, fun h hn => ?_, fun h ho hg => ?_⟩
  · subst hg
    refine ⟨releaseFrame slot s.comp, ?_, ?_, fun i hi => frameAt_releaseFrame_other hi _, rfl,
      fun e he => stopped_of_mem_dropRetints he, fun e he => mem_dropRetints_other he, rfl, rfl, rfl, rfl⟩
    · rw [takeFrameRelease_live (frameRefusal_live hlt hl rfl), decided_eq]
    · exact (frameAt_releaseFrame slot slot _ hlen).trans (if_pos rfl)
  · rw [takeFrameRelease_refused (frameRefusal_badSlot h), decided_eq]
  · rw [takeFrameRelease_refused (frameRefusal_notFound h hn), decided_eq]
  · rw [takeFrameRelease_refused (frameRefusal_opened h ho hg), decided_eq]

end Sys2Proof.Machine
end

section
/-! SUPPORT. What FRAME_INFO and LOCATE report of a LIVE record, and how a column is resolved on a recomputed line (R58, R79,
R80). -/

namespace Sys2Proof.Machine

theorem exec_frameInfo {s : State} (h : Ready s) (tag : Byte) (slot gen first : Nat) :
    exec (.frameInfo tag slot gen first) s = .next (decided tag 0x33#8 (takeFrameInfo slot gen first s)) :=
  congrArg Host.Outcome.next (present_ready h tag (.frameInfo slot gen first))

theorem exec_locate {s : State} (h : Ready s) (tag : Byte) (slot gen x y : Nat) :
    exec (.locate tag slot gen x y) s = .next (decided tag 0x34#8 (takeLocate slot gen x y s)) :=
  congrArg Host.Outcome.next (present_ready h tag (.locate slot gen x y))

/-! ### FRAME_INFO (R58) -/

theorem takeFrameInfo_refused {slot gen : Nat} {s : State} {e : Status} (h : frameRefusal slot gen s = some e) (first : Nat) :
    takeFrameInfo slot gen first s = (s, e, .none) := by
  rw [takeFrameInfo, h]

theorem retintRuns_iff (c : Composition) (slot gen : Nat) :
    retintRuns c slot gen = true ↔ ∃ e ∈ c.retints, e.slot = slot ∧ e.gen = gen ∧ e.run ≠ none := by
  simp [retintRuns, List.any_eq_true, and_assoc, Option.isSome_iff_ne_none]

theorem retintWaits_iff (c : Composition) (slot gen : Nat) :
    retintWaits c slot gen = true ↔ ∃ e ∈ c.retints, e.slot = slot ∧ e.gen = gen ∧ e.run = none := by
  simp [retintWaits, List.any_eq_true, and_assoc]

/-- A record's retint job is RUNNING when an entry of its runs (R45, R58). -/
theorem retintState_running_iff (c : Composition) (slot gen : Nat) :
    retintState c slot gen = .running ↔ ∃ e ∈ c.retints, e.slot = slot ∧ e.gen = gen ∧ e.run ≠ none := by
  rw [← retintRuns_iff]
  cases hr : retintRuns c slot gen <;> cases hw : retintWaits c slot gen <;> simp [retintState, hr, hw]

/-- A record has no retint job when the queue has no entry of it (R45, R58). -/
theorem retintState_absent_iff (c : Composition) (slot gen : Nat) :
    retintState c slot gen = .absent ↔ ∀ e ∈ c.retints, e.slot ≠ slot ∨ e.gen ≠ gen := by
  have absent : retintState c slot gen = .absent ↔ ¬retintRuns c slot gen = true ∧ ¬retintWaits c slot gen = true := by
    cases hr : retintRuns c slot gen <;> cases hw : retintWaits c slot gen <;> simp [retintState, hr, hw]
  rw [absent, retintRuns_iff, retintWaits_iff]
  constructor
  · rintro ⟨noRun, noWait⟩ e he
    rw [← not_and_or]
    rintro ⟨hs, hg⟩
    by_cases hrun : e.run = none
    · exact noWait ⟨e, he, hs, hg, hrun⟩
    · exact noRun ⟨e, he, hs, hg, hrun⟩
  · intro other
    refine ⟨?_, ?_⟩ <;>
    · rintro ⟨e, he, hs, hg, -⟩
      exact (other e he).elim (absurd hs) (absurd hg)

/-! ### A column on a line (R75, R80) -/

theorem pixelOf_mono {p q : Nat} (h : p ≤ q) : pixelOf p ≤ pixelOf q := Nat.div_le_div_right (Nat.add_le_add_right h 8)

/-- No pen of a recomputed line lies before that of its first item (R75, R78). -/
theorem layLine_head_pen {s : State} {f : FrameRec} {l : LineRec} {a : Laid} {rest : List Laid}
    (h : layLine s f l = a :: rest) : ∀ b ∈ layLine s f l, a.pen ≤ b.pen := by
  have head : ∀ pen gs items, layItems pen gs items = a :: rest → a.pen = pen := by
    intro pen gs items he
    cases items with
    | nil => cases he
    | cons i items => cases i <;> cases he <;> rfl
  unfold layLine recomputeLine at h ⊢
  simp only at h ⊢
  split at h
  · cases h
  · intro b hb
    rw [head _ _ _ h]
    exact layItems_pen _ _ _ b hb

theorem inSpan_iff (fx x : Nat) (a : Laid) : inSpan fx x a = true ↔ fx + pixelOf a.pen ≤ x ∧ x < fx + pixelOf a.next :=
  decide_eq_true_iff

section
variable {fx x : Nat} {l : LineRec} {laid : List Laid}

/-- A column left of the line's first item (R80). -/
theorem resolveColumn_before {a : Laid} {rest : List Laid} (h : laid = a :: rest) (pens : ∀ b ∈ laid, a.pen ≤ b.pen)
    (hx : x < fx + pixelOf a.pen) : resolveColumn fx x l laid = (.before, l.start) := by
  have outside : laid.find? (inSpan fx x) = none := by
    refine List.find?_eq_none.mpr fun b hb => ?_
    rw [inSpan_iff]
    have := pixelOf_mono (pens b hb)
    omega
  rw [resolveColumn, outside, h]
  exact if_pos hx

/-- A column right of all the line's items (R80). -/
theorem resolveColumn_after (hne : laid ≠ [])
    (hx : ∀ a ∈ laid, fx + pixelOf a.pen ≤ x ∧ fx + pixelOf a.next ≤ x) :
    resolveColumn fx x l laid = (.after, l.stop) := by
  have outside : laid.find? (inSpan fx x) = none := by
    refine List.find?_eq_none.mpr fun b hb => ?_
    rw [inSpan_iff]
    have := hx b hb
    omega
  obtain ⟨a, rest, rfl⟩ := List.exists_cons_of_ne_nil hne
  rw [resolveColumn, outside]
  exact if_neg (Nat.not_lt.mpr (hx a (List.mem_cons_self ..)).1)

/-- A column in an item's span, and in no earlier one's (R80). -/
theorem resolveColumn_hit {pre post : List Laid} {a : Laid} (h : laid = pre ++ a :: post)
    (hpre : ∀ b ∈ pre, ¬(fx + pixelOf b.pen ≤ x ∧ x < fx + pixelOf b.next)) (h1 : fx + pixelOf a.pen ≤ x)
    (h2 : x < fx + pixelOf a.next) : resolveColumn fx x l laid = hitOf l a := by
  have found : laid.find? (inSpan fx x) = some a := by
    refine List.find?_eq_some_iff_append.mpr ⟨(inSpan_iff _ _ _).mpr ⟨h1, h2⟩, pre, post, h, fun b hb => ?_⟩
    rw [Bool.not_eq_true', ← Bool.not_eq_true, inSpan_iff]
    exact hpre b hb
  rw [resolveColumn, found]

end

/-! ### LOCATE (R79, R80) -/

theorem takeLocate_refused {slot gen : Nat} {s : State} {e : Status} (h : frameRefusal slot gen s = some e) (x y : Nat) :
    takeLocate slot gen x y s = (s, e, .none) := by
  rw [takeLocate, h]

theorem bandHas_iff (f : FrameRec) (y : Nat) (l : LineRec) :
    bandHas f y l = true ↔ f.rect.y + l.top ≤ y ∧ y < f.rect.y + l.top + l.height := decide_eq_true_iff

section
variable {slot gen x y : Nat} {s : State}

/-- A row in no line's band (R79). -/
theorem takeLocate_noBand (h : frameRefusal slot gen s = none)
    (hy : ∀ l ∈ (frameAt s.comp slot).lines,
      ¬((frameAt s.comp slot).rect.y + l.top ≤ y ∧ y < (frameAt s.comp slot).rect.y + l.top + l.height)) :
    takeLocate slot gen x y s = (s, .notFound, .none) := by
  have none : (frameAt s.comp slot).lines.find? (bandHas (frameAt s.comp slot) y) = none :=
    List.find?_eq_none.mpr fun l hl => by
      rw [bandHas_iff]
      exact hy l hl
  simp only [takeLocate, h, none]

/-- A row in a line's band, and in no earlier one's (R79, R80). -/
theorem takeLocate_line (h : frameRefusal slot gen s = none) {before after : List LineRec} {l : LineRec}
    (hl : (frameAt s.comp slot).lines = before ++ l :: after)
    (hb : ∀ b ∈ before,
      ¬((frameAt s.comp slot).rect.y + b.top ≤ y ∧ y < (frameAt s.comp slot).rect.y + b.top + b.height))
    (h1 : (frameAt s.comp slot).rect.y + l.top ≤ y) (h2 : y < (frameAt s.comp slot).rect.y + l.top + l.height) :
    takeLocate slot gen x y s
      = (s, .ok,
        .located l.index l.start l.stop
          (resolveColumn (frameAt s.comp slot).rect.x x l (layLine s (frameAt s.comp slot) l)).1
          (resolveColumn (frameAt s.comp slot).rect.x x l (layLine s (frameAt s.comp slot) l)).2) := by
  have found : (frameAt s.comp slot).lines.find? (bandHas (frameAt s.comp slot) y) = some l := by
    refine List.find?_eq_some_iff_append.mpr ⟨(bandHas_iff _ _ _).mpr ⟨h1, h2⟩, before, after, hl, fun b hbm => ?_⟩
    rw [Bool.not_eq_true', ← Bool.not_eq_true, bandHas_iff]
    exact hb b hbm
  simp only [takeLocate, h, found]

end

/-- Settles O30: the refusals, the report of a LIVE record, and a point resolved first to a line and then to an item. -/
theorem frameInfoAndLocateReport : Obligations.FrameInfoAndLocateReport := by
  rintro s tag slot gen f hs rfl
  refine ⟨fun e he => ?_, fun hlt hl hg => ⟨fun first => ?_, fun x y => ⟨fun hy => ?_, fun before after l hlines hb h1 h2 => ?_⟩⟩⟩
  · have refused : frameRefusal slot gen s = some e := by
      rcases he with ⟨h, rfl⟩ | ⟨h, hn, rfl⟩ | ⟨h, ho, hg, rfl⟩
      · exact frameRefusal_badSlot h
      · exact frameRefusal_notFound h hn
      · exact frameRefusal_opened h ho hg
    exact ⟨fun first => by rw [exec_frameInfo hs, takeFrameInfo_refused refused, decided_eq],
      fun x y => by rw [exec_locate hs, takeLocate_refused refused, decided_eq]⟩
  all_goals have live := frameRefusal_live hlt hl hg
  · refine ⟨retintState s.comp slot gen, retintState_running_iff _ _ _, retintState_absent_iff _ _ _, ?_⟩
    rw [exec_frameInfo hs, takeFrameInfo, live, decided_eq]
  · rw [exec_locate hs, takeLocate_noBand live hy, decided_eq]
  · refine ⟨_, _, by rw [exec_locate hs, takeLocate_line live hlines hb h1 h2, decided_eq], fun hnil => ?_,
      fun a rest ha hx => ?_, fun hne hx => ?_, fun pre a post ha hpre hp hn => ?_⟩
    · rw [hnil]
      exact ⟨rfl, rfl⟩
    · rw [resolveColumn_before ha (layLine_head_pen ha) hx]
      exact ⟨rfl, rfl⟩
    · rw [resolveColumn_after hne hx]
      exact ⟨rfl, rfl⟩
    · rw [resolveColumn_hit ha hpre hp hn, hitOf]
      refine ⟨fun g p hi hp => ?_, fun g hi hp => ?_, fun g hi => ?_⟩
      · simp only [hi, hp, and_self]
      · simp only [hi, hp, and_self]
      · simp only [hi, and_self]

end Sys2Proof.Machine
end

section
/-! SUPPORT. The LINES and OVERLAY passes of a running job: LINE_SET, GLYPH_SPAN_DRAWN and OVERLAY_LINE_DONE, with the boundaries
after them (R48, R51 to R55, R68, R77, R95, R96, R109). -/

namespace Sys2Proof.Machine

/-! ### Boundaries after drawing (R48) -/

/-- A state that drawing has left as `d`, with the started job moved on. -/
def movedTo (s d : State) (j : Job) : State := { d with comp := { s.comp with started := some j } }

theorem withJob_drawn {s d : State} (h : Drawn s d) (j : Job) : withJob j d = movedTo s d j := by
  rw [withJob, h.comp, movedTo]

/-- An abort recorded ends the job at the boundary: its notice, its released record, the free path (R48, R55, R56). -/
theorem atBoundary_aborted (go : State → State) {s : State} {j : Job} (hj : s.comp.started = some j)
    (hr : j.running = true) (ha : j.abortAsked = true) {f : FrameRec} (hf : s.comp.frames[j.slot]? = some f) :
    ∃ c,
      atBoundary go s
        = post
          (.composeAborted j.spec.tag .running f.lines.length ((f.lines.getLast?.map (·.stop)).getD j.spec.start)
            (some ⟨j.slot, j.gen, j.overlapped, j.evicted⟩)) { s with comp := c }
      ∧ c.started = none ∧ c.path = .free ∧ c.jobs = s.comp.jobs ∧ frameAt c j.slot = FrameRec.vacant f.gen
      ∧ ∀ i, i ≠ j.slot → frameAt c i = frameAt s.comp i := by
  obtain ⟨hstarted, hpath, hslot⟩ := dropStarted_release_spec hr hf
  refine ⟨dropStarted j (releaseFrame j.slot s.comp), ?_, hstarted, hpath, rfl, hslot,
    fun i hi => frameAt_releaseFrame_other hi s.comp⟩
  rw [atBoundary_abort go hj ha, endAborted_eq, frameAt_of_some hf]

/-! ### LINE_SET (R51, R52, R68, R95) -/

/-- The OVERLAY pass of a record with lines begins with its snapshot (R95). -/
theorem beginOverlay_lines {s : State} {j : Job} (hj : s.comp.started = some j) {f : FrameRec}
    (hf : s.comp.frames[j.slot]? = some f) (hl : f.lines ≠ []) : beginOverlay s = snapshotTaken j f s := by
  simp [beginOverlay, hj, frameAt_of_some hf, hl, snapshotTaken]

/-- A job stopped at its current position by a line that does not fit (R52). -/
def linesStopped (j : Job) : Job := { j with phase := .overlay 0, stop := j.current }

section
variable {s : State} {j : Job} (hj : s.comp.started = some j) (hr : j.running = true) (hp : j.phase = .lines)
include hj hr hp

/-- A line that does not fit stops the pass at the current position (R52). -/
theorem lineSet_noFit (h : j.spec.rect.h < (jobLine s j).record.top + (jobLine s j).record.height) :
    lineSet s = beginOverlay (withJob (linesStopped j) s) := by
  rw [lineSet, runningJob_eq hj hr]
  simp only [hp]
  exact if_pos h

/-- A line that fits with a STRICT failure in its range ends the job (R54, R68). -/
theorem lineSet_fails (h : (jobLine s j).record.top + (jobLine s j).record.height ≤ j.spec.rect.h)
    {e : FailReason × Pos}
    (he : lineFailure (jobEnv s j) (normalise (jobRecs s j) j.current) (jobLine s j).record.stop j.stack = some e) :
    lineSet s = endFailed j e.1 e.2 .lines s := by
  rw [lineSet, runningJob_eq hj hr]
  simp only [hp]
  rw [if_neg (Nat.not_lt.mpr h), he]

/-- A line that fits, with glyphs to draw, is drawn next (R51). -/
theorem lineSet_draws (h : (jobLine s j).record.top + (jobLine s j).record.height ≤ j.spec.rect.h)
    (hn : lineFailure (jobEnv s j) (normalise (jobRecs s j) j.current) (jobLine s j).record.stop j.stack = none)
    (he : (jobLine s j).entries ≠ []) :
    lineSet s
      = withJob
        { j with missing := j.missing + fallbacks (jobLine s j).entries, phase := .drawing (jobLine s j) 0 } s := by
  rw [lineSet, runningJob_eq hj hr]
  simp only [hp]
  rw [if_neg (Nat.not_lt.mpr h), hn]
  simp [he]

end

/-- Settles O34: a set line by whether it fits, whether it fails, and whether it has glyphs. -/
theorem lineSetFitsOrStops : Obligations.LineSetFitsOrStops := by
  rintro s j w hj hr hp rfl hf
  refine ⟨fun hno hl => congrArg Host.Outcome.next ?_, fun hfits hok he => congrArg Host.Outcome.next ?_,
    fun reason at_ hfits hbad => ?_⟩
  · exact (lineSet_noFit hj hr hp hno).trans (beginOverlay_lines (s := withJob (linesStopped j) s) rfl hf hl)
  · rw [lineSet_draws hj hr hp hfits hok he, fallbacks, List.countP_eq_length_filter]
    rfl
  · obtain ⟨c, hc, hstarted, hpath, -⟩ := endFailed_spec hr hf reason at_ .lines
    exact ⟨c, congrArg Host.Outcome.next ((lineSet_fails hj hr hp hfits hbad).trans hc), hstarted, hpath⟩

/-! ### GLYPH_SPAN_DRAWN (R51, R77, R109) -/

/-- All entries lie below span `k` (R51). -/
theorem spanCount_le_iff {spanLength : Nat} (h : 1 ≤ spanLength) (entries k : Nat) :
    spanCount spanLength entries ≤ k ↔ entries ≤ k * spanLength := by
  rw [spanCount, Nat.div_le_iff_le_mul_add_pred h, Nat.mul_comm]
  omega

/-- A span drawn is followed by its boundary, and after the last one by the line's end (R48, R51). -/
theorem afterSpan_eq (j : Job) (w : WorkingLine) (span : Nat) (s : State) :
    afterSpan j w span s
      = atBoundary (if spanCount j.spanLength w.entries.length ≤ span then finishLine j w else id) s := by
  rw [afterSpan]
  split <;> rfl

/-- A job with the spans of its line below `k` drawn (R51). -/
def spansDrawn (w : WorkingLine) (k : Nat) (j : Job) : Job := { j with phase := .drawing w k }

theorem glyphSpanDrawn_eq {s : State} {j : Job} (hj : s.comp.started = some j) (hr : j.running = true) {w : WorkingLine}
    {k : Nat} (hp : j.phase = .drawing w k) (hL : 1 ≤ j.spanLength) (hk : k * j.spanLength < w.entries.length) :
    glyphSpanDrawn s
      = atBoundary
        (if w.entries.length ≤ (k + 1) * j.spanLength then finishLine (spansDrawn w (k + 1) j) w else id)
        (movedTo s (drawEntries j.spec.rect ((w.entries.drop (k * j.spanLength)).take j.spanLength) s)
          (spansDrawn w (k + 1) j)) := by
  have left : ¬spanCount j.spanLength w.entries.length ≤ k := by
    rw [spanCount_le_iff hL]
    omega
  rw [glyphSpanDrawn, runningJob_eq hj hr]
  simp only [jobSpanDrawn, hp]
  rw [if_neg left, afterSpan_eq, withJob_drawn (drawEntries_drawn _ _ s), ← spansDrawn]
  simp only [spansDrawn, spanCount_le_iff hL, spanEntries]

/-- A line that stops neither at the limit nor at the last line recorded is followed by the next one (R51, R52, R77). -/
theorem finishLine_goes {s : State} {j : Job} (ha : j.abortAsked = false) (hw : anyRetintWaiting s.comp = false)
    {f : FrameRec} (hf : s.comp.frames[j.slot]? = some f) {w : WorkingLine} (hrun : w.record.stop.run < j.limit)
    (hl : f.lines.length < 255) :
    finishLine j w s
      = { s with
          comp :=
            { s.comp with
              started := some { j with stack := w.stack, current := w.record.stop, nextTop := w.nextTop, phase := .lines }
              frames := s.comp.frames.set j.slot { f with lines := f.lines ++ [w.record] } } } := by
  have goes : stopAfter j (f.lines ++ [w.record]).length w.record.stop = none := by
    rw [stopAfter, if_neg (Nat.not_le.mpr hrun), if_neg]
    simp only [List.length_append, List.length_singleton, Config.maxLines]
    omega
  simp only [finishLine, frameAt_of_some hf]
  simp only [stopAfter] at goes ⊢
  simp only [goes]
  exact atBoundary_go (j := { j with stack := w.stack, current := w.record.stop, nextTop := w.nextTop, phase := .lines }) _
    rfl ha hw

/-- Settles O36: the span drawn, then its boundary, and after the last span the line's end. -/
theorem spanDrawnThenBoundary : Obligations.SpanDrawnThenBoundary := by
  intro s j f w k hj hr hp hL hk hf
  have drawn := glyphSpanDrawn_eq hj hr hp hL hk
  refine ⟨_, rfl, (drawEntries_drawn _ _ s).eq, fun ha => ?_, fun ha hw hmore => congrArg Host.Outcome.next ?_,
    fun ha hw => congrArg Host.Outcome.next ?_, fun ha hw hlast hrun hl => congrArg Host.Outcome.next ?_⟩
  · obtain ⟨c, hc, rest⟩ := atBoundary_aborted _ (s := movedTo s _ (spansDrawn w (k + 1) j)) rfl hr ha hf
    exact ⟨c, congrArg Host.Outcome.next (drawn.trans hc), rest⟩
  · rw [drawn, if_neg (Nat.not_le.mpr hmore)]
    exact atBoundary_go (s := movedTo s _ (spansDrawn w (k + 1) j)) _ rfl ha (anyRetintWaiting_false hw)
  · exact drawn.trans
      (atBoundary_suspend (s := movedTo s _ (spansDrawn w (k + 1) j)) _ rfl ha (anyRetintWaiting_true hw))
  · have quiet := anyRetintWaiting_false hw
    rw [drawn, if_pos hlast, atBoundary_go (s := movedTo s _ (spansDrawn w (k + 1) j)) _ rfl ha quiet]
    exact finishLine_goes (s := movedTo s _ (spansDrawn w (k + 1) j)) ha quiet hf hrun hl

/-! ### OVERLAY_LINE_DONE (R53, R95, R96) -/

/-- A job with the overlay of line `i` drawn (R95). -/
def lineOverlaid (o : Overlaid) (i : Nat) (j : Job) : Job :=
  { j with
    missing := j.missing + o.missing, suppressed := j.suppressed + o.suppressed, phase := .overlay (i + 1), work := none }

/-- With the snapshot taken, what is left of the line's overlay is drawn from it, and the boundary follows (R48, R95). -/
theorem overlayLineDone_eq {s : State} {j : Job} (hj : s.comp.started = some j) (hr : j.running = true) {i : Nat}
    (hp : j.phase = .overlay i) {f : FrameRec} (hf : s.comp.frames[j.slot]? = some f) {line : LineRec}
    (hl : f.lines[i]? = some line) {notes : List Note} (hs : f.snapshot = some notes) {o : Overlaid}
    (ho : o = finishOverlayLine f line (j.work.getD (beginOverlayLine f line j.stack notes s)) s) :
    overlayLineDone s
      = atBoundary (if i + 1 = f.lines.length then atBoundary closeJob else id)
        (movedTo s o.state (lineOverlaid o i j)) := by
  have taken : ensureSnapshot j s = s := if_pos (by rw [frameAt_of_some hf, hs]; rfl)
  have drawn : Drawn s o.state := by
    rw [ho]
    exact finishOverlayLine_drawn _ _ _ _
  rw [overlayLineDone, runningJob_eq hj hr]
  simp only [hp, taken, frameAt_of_some hf, hl]
  rw [← withJob_drawn drawn]
  simp only [overlayJobLine, jobLineWork, frameAt_of_some hf, hs, Option.getD_some, ← ho, lineOverlaid]

/-- Settles O38: the line's overlay drawn, then its boundary, and after the last line the CLOSE pass. -/
theorem overlayThenClose : Obligations.OverlayThenClose := by
  intro s j f i line notes hj hr hp hf hl hs
  refine ⟨_, rfl, (finishOverlayLine_drawn _ _ _ _).eq, fun hw => ?_, ?_⟩
  · rw [hw]
    rfl
  generalize ho : finishOverlayLine f line (j.work.getD (beginOverlayLine f line j.stack notes s)) s = o
  have done := overlayLineDone_eq hj hr hp hf hl hs ho.symm
  refine ⟨fun ha => ?_, fun ha hw => congrArg Host.Outcome.next ?_, fun ha hw hmore => congrArg Host.Outcome.next ?_,
    fun ha hw hlast => congrArg Host.Outcome.next ?_⟩
  · obtain ⟨c, hc, rest⟩ := atBoundary_aborted _ (s := movedTo s o.state (lineOverlaid o i j)) rfl hr ha hf
    exact ⟨c, congrArg Host.Outcome.next (done.trans hc), rest⟩
  · exact done.trans
      (atBoundary_suspend (s := movedTo s o.state (lineOverlaid o i j)) _ rfl ha (anyRetintWaiting_true hw))
  · rw [done, if_neg (Nat.ne_of_lt hmore)]
    exact atBoundary_go (s := movedTo s o.state (lineOverlaid o i j)) _ rfl ha (anyRetintWaiting_false hw)
  · have quiet := anyRetintWaiting_false hw
    rw [done, if_pos hlast, atBoundary_go (s := movedTo s o.state (lineOverlaid o i j)) _ rfl ha quiet,
      atBoundary_go (s := movedTo s o.state (lineOverlaid o i j)) _ rfl ha quiet,
      closeJob_eq (s := movedTo s o.state (lineOverlaid o i j)) rfl hr hf]
    simp only [doneNotice, linesWith, List.countP_eq_length_filter]
    rfl

end Sys2Proof.Machine
end

section
/-! SUPPORT. What the arbiter does with a free path: a retint job, a commit, the suspended job or a queued one, in this order
(R46, R47, R49, R97, R117, R118). -/

namespace Sys2Proof.Machine

/-! ### The arbiter's choice (R47) -/

theorem waitingRetint_none {c : Composition} (h : ∀ e ∈ c.retints, e.run ≠ none) : waitingRetint c = none :=
  List.find?_eq_none.mpr fun e he => by simpa using h e he

theorem waitingRetint_first {c : Composition} {before after : List RetintEntry} {e : RetintEntry}
    (h : c.retints = before ++ e :: after) (hb : ∀ b ∈ before, b.run ≠ none) (he : e.run = none) :
    waitingRetint c = some e :=
  List.find?_eq_some_iff_append.mpr ⟨by simp [he], before, after, h, fun b hm => by
    simpa [Option.isSome_iff_ne_none] using hb b hm⟩

theorem rasterPathGrant_waits {s : State} (h : s.settings.power ≠ .active ∨ s.comp.path ≠ .free) :
    rasterPathGrant s = s :=
  if_neg (by simpa [Classical.or_iff_not_imp_left] using h)

section
variable {s : State} (ha : s.settings.power = .active) (hf : s.comp.path = .free)
include ha hf

theorem rasterPathGrant_retint {e : RetintEntry} (he : waitingRetint s.comp = some e) :
    rasterPathGrant s = startRetint e s := by
  simp [rasterPathGrant, ha, hf, he]

variable (hw : ∀ e ∈ s.comp.retints, e.run ≠ none)
include hw

theorem rasterPathGrant_latch {c : CommitSpec} (hc : s.comp.commit = .pending c) : rasterPathGrant s = startLatch c s := by
  simp [rasterPathGrant, ha, hf, waitingRetint_none hw, hc]

variable (hc : ∀ c, s.comp.commit ≠ .pending c)
include hc

theorem rasterPathGrant_resumes {j : Job} (hj : s.comp.started = some j) :
    rasterPathGrant s
      = { s with comp := { s.comp with path := .composeJob, started := some { j with running := true } } } := by
  cases hk : s.comp.commit with
  | pending c => exact absurd hk (hc c)
  | _ => simp [rasterPathGrant, ha, hf, waitingRetint_none hw, hk, hj]

theorem rasterPathGrant_noJob (hn : s.comp.started = none) (hq : s.comp.jobs = []) : rasterPathGrant s = s := by
  cases hk : s.comp.commit with
  | pending c => exact absurd hk (hc c)
  | _ => simp [rasterPathGrant, ha, hf, waitingRetint_none hw, hk, hn, hq]

theorem rasterPathGrant_job (hn : s.comp.started = none) {q : JobSpec} {rest : List JobSpec}
    (hq : s.comp.jobs = q :: rest) : rasterPathGrant s = startJob q rest s := by
  cases hk : s.comp.commit with
  | pending c => exact absurd hk (hc c)
  | _ => simp [rasterPathGrant, ha, hf, waitingRetint_none hw, hk, hn, hq]

end

/-! ### A retint job starts (R97) -/

theorem runEntry_first (run : RetintRun) {before after : List RetintEntry} {e : RetintEntry}
    (hb : ∀ b ∈ before, b.run ≠ none) (he : e.run = none) :
    runEntry run (before ++ e :: after) = before ++ ⟨e.slot, e.gen, some run⟩ :: after := by
  induction before with
  | nil => simp [runEntry, he]
  | cons b before ih =>
    have hb0 : b.run ≠ none := hb b (List.mem_cons_self ..)
    simp [runEntry, hb0, ih fun x hx => hb x (List.mem_cons_of_mem _ hx)]

/-- A retint job starts on its record's pending range (R97). -/
theorem startRetint_starts {s : State} {e : RetintEntry} {lo hi : Nat}
    (h : (frameAt s.comp e.slot).retint = some (lo, hi)) :
    ∃ run : RetintRun,
      (startRetint e s).comp.retints = runEntry run s.comp.retints
      ∧ run.lo = lo ∧ run.hi = hi ∧ run.current = lo ∧ run.redrawn = 0 ∧ run.suppressed = 0 ∧ run.released = false
      ∧ run.spanLength = applied (startRetint e s) 4 ∧ run.paper = applied (startRetint e s) 5 := by
  have range : (frameAt s.comp e.slot).retint.getD (0, 0) = (lo, hi) := by rw [h, Option.getD_some]
  exact ⟨_, rfl, congrArg Prod.fst range, congrArg Prod.snd range, congrArg Prod.fst range, rfl, rfl, rfl, rfl, rfl⟩

/-! ### A latch begins (R46, R117, R118) -/

theorem nextDirty_some {cols : Nat} {r : TileRect} {tiles : List TileRec} {i : Nat} {t : TileRec} (ht : tiles[i]? = some t)
    (hd : t.workDirty = true) (hin : inTileRect r (i % cols) (i / cols) = true) : nextDirty cols r 0 tiles ≠ none := by
  intro hn
  have hnil := (tilesWhere_nil _ tiles).mp (List.head?_eq_none_iff.mp hn) i t ht
  simp [hd, hin] at hnil

theorem nextDirty_none {cols : Nat} {r : TileRect} {tiles : List TileRec}
    (h : ∀ (i : Nat) (t : TileRec), tiles[i]? = some t → inTileRect r (i % cols) (i / cols) = true → t.workDirty = false) :
    nextDirty cols r 0 tiles = none := by
  refine List.head?_eq_none_iff.mpr ((tilesWhere_nil _ tiles).mpr fun i t ht => ?_)
  cases hin : inTileRect r (i % cols) (i / cols) with
  | false => simp
  | true => simp [h i t ht hin]

theorem startLatch_begins {c : CommitSpec} {s : State} (h : nextDirty (tileCols s) c.rect 0 s.sched.tiles ≠ none) :
    startLatch c s = { s with comp := { s.comp with path := .latch, commit := .latching c 0 [] 0 } } := by
  obtain ⟨i, hi⟩ := Option.ne_none_iff_exists'.mp h
  have hi' : nextDirty (tileCols { s with comp := { s.comp with path := .latch } }) c.rect 0 s.sched.tiles = some i := hi
  simp only [startLatch, continueLatch, hi']

/-- A commit without a work-dirty tile ends at once (R118). -/
theorem startLatch_ends {c : CommitSpec} {s : State} (hp : s.comp.path = .free)
    (h : nextDirty (tileCols s) c.rect 0 s.sched.tiles = none) :
    startLatch c s = post (.commitDone c.mode c.cls c.rect 0 0 0) { s with comp := { s.comp with commit := .empty } } := by
  have h' : nextDirty (tileCols { s with comp := { s.comp with path := .latch } }) c.rect 0 s.sched.tiles = none := h
  simp only [startLatch, continueLatch, h', endLatch, boundTiles, ← hp]
  rfl

/-! ### The records that a starting job releases (R49) -/

theorem panelRect_boundary (s : State) :
    panelRect { s with settings := applyBoundary .jobBoundary s.settings } = panelRect s := by
  have kept := fun id hid => applied_boundary (c := .jobBoundary) (by decide) s (id := id) hid
  simp only [panelRect, panelWidth, panelHeight, applied] at kept ⊢
  rw [kept 0 (by decide), kept 1 (by decide)]

/-- The records released are the LIVE ones whose area meets the job's, on the panel as it stands (R49). -/
theorem overlapping_eq_filter {s : State} {q : JobSpec} {meets : Nat → Bool}
    (hm : ∀ i, meets i = true ↔
      i < 8 ∧ (frameAt s.comp i).state = .live
        ∧ rectsMeet (areaOf (panelRect s) q.rect q.marginLeft q.marginRight)
          (areaOf (panelRect s) (frameAt s.comp i).rect (frameAt s.comp i).marginLeft (frameAt s.comp i).marginRight) = true) :
    overlapping { s with settings := applyBoundary .jobBoundary s.settings } q = (List.range 8).filter meets := by
  refine List.filter_congr fun i hi => Bool.eq_iff_iff.mpr ?_
  rw [hm i]
  simp [jobArea, frameArea, panelRect_boundary, List.mem_range.mp hi]

theorem liveOrder_releaseAll (l : List Nat) (c : Composition) :
    (releaseAll l c).liveOrder = c.liveOrder.filter (fun i => !l.contains i) := by
  induction l generalizing c with
  | nil => simp [releaseAll]
  | cons a l ih =>
    refine (ih (releaseFrame a c)).trans ?_
    simp only [releaseFrame, List.filter_filter]
    refine List.filter_congr fun i _ => ?_
    rw [List.contains_cons, Bool.not_or, Bool.and_comm]
    rfl

/-! ### The slot that a starting job claims (R49) -/

theorem evict_free {c : Composition} {k : Nat} (h : freeSlot c = some k) : evict c = (c, none) := by
  simp [evict, h]

theorem freeSlot_none {c : Composition} (h : ∀ i, i < 8 → (frameAt c i).state ≠ .free) : freeSlot c = none := by
  rw [freeSlot, List.head?_eq_none_iff, List.eq_nil_iff_forall_not_mem]
  intro i hi
  obtain ⟨hlt, hs⟩ := (mem_framesWhere _ _ _).mp hi
  exact h i hlt (by simpa using hs)

theorem evict_full {c : Composition} (h : freeSlot c = none) {first : Nat} {more : List Nat}
    (ho : c.liveOrder = first :: more) : evict c = (releaseFrame first c, some (first, (frameAt c first).gen)) := by
  simp [evict, h, ho]

/-- Where no slot was FREE, the slot of the evicted record is the FREE one (R49). -/
theorem freeSlot_evicted {c : Composition} (h : ∀ i, i < 8 → (frameAt c i).state ≠ .free) {first : Nat} (hlt : first < 8)
    (hlen : c.frames.length = 8) : freeSlot (releaseFrame first c) = some first := by
  have freed := fun i => frameAt_releaseFrame first i c (by rw [hlen]; exact hlt)
  obtain ⟨k, hk, hk8, hfree, -⟩ := freeSlot_spec (releaseFrame first c) ⟨first, hlt, by rw [freed, if_pos rfl]; rfl⟩
  by_cases he : k = first
  · rw [hk, he]
  · rw [freed, if_neg he] at hfree
    exact absurd hfree (h k hk8)

/-- What the start of a job leaves, over the composition `c` in which slot `k` is claimed, and the record evicted for it
(R49, R16). -/
structure JobStarts (s : State) (q : JobSpec) (rest : List JobSpec) (c : Composition) (evicted : Option (Nat × Nat)) (k : Nat)
    (t : State) (j : Job) : Prop where
  path : t.comp.path = .composeJob
  jobs : t.comp.jobs = rest
  started : t.comp.started = some j
  spec : j.spec = q
  running : j.running = true
  phase : j.phase = .replay
  abortAsked : j.abortAsked = false
  missing : j.missing = 0
  limit : j.limit = (s.flows.getD q.flow []).length
  spanLength : j.spanLength = applied t 4
  paper : j.paper = applied t 5
  stack : j.stack = stackAtStart s.styles q.style (stackModeOf (applied t 3))
  slot : j.slot = k
  gen : j.gen = ((frameAt c k).gen + 1) % 65536
  evicted : j.evicted = evicted
  liveOrder : t.comp.liveOrder = c.liveOrder
  frames : t.comp.frames = c.frames.set k (openFrame q j.gen)
  rest : t = { s with comp := t.comp, settings := applyBoundary .jobBoundary s.settings }

/-- The records released, the one evicted and the slot claimed decide what a starting job leaves (R49). -/
theorem startJob_starts {s : State} {q : JobSpec} {hit : List Nat} {c : Composition} {evicted : Option (Nat × Nat)} {k : Nat}
    (hh : overlapping { s with settings := applyBoundary .jobBoundary s.settings } q = hit)
    (he : evict (releaseAll hit s.comp) = (c, evicted)) (hk : freeSlot c = some k) (rest : List JobSpec) :
    ∃ j, JobStarts s q rest c evicted k (startJob q rest s) j ∧ j.overlapped = hit.length := by
  simp only [startJob, hh, he, hk, Option.getD_some]
  exact ⟨_, ⟨rfl, rfl, rfl, rfl, rfl, rfl, rfl, rfl, rfl, rfl, rfl, rfl, rfl, rfl, rfl, rfl, rfl, rfl⟩, rfl⟩

/-- A record slot after the start of a job (R49). -/
theorem JobStarts.frameAt_eq {s : State} {q : JobSpec} {rest : List JobSpec} {c : Composition} {evicted : Option (Nat × Nat)}
    {k : Nat} {t : State} {j : Job} (h : JobStarts s q rest c evicted k t j) (hk : k < c.frames.length) (i : Nat) :
    frameAt t.comp i = if i = k then openFrame q j.gen else frameAt c i := by
  rw [← frameAt_withFrame k i _ c hk]
  simp only [frameAt, h.frames, withFrame]

theorem JobStarts.opened {s : State} {q : JobSpec} {rest : List JobSpec} {c : Composition} {evicted : Option (Nat × Nat)}
    {k : Nat} {t : State} {j : Job} (h : JobStarts s q rest c evicted k t j) (hk : k < c.frames.length) :
    frameAt t.comp j.slot = openFrame q j.gen := by
  rw [h.frameAt_eq hk, if_pos h.slot]

/-- The slot `k` claimed for a job over the composition `c` that the releases leave, and the record evicted for it, by whether a
slot was FREE or came free with an overlapped record (R49). -/
structure SlotClaimed (s : State) (meets : Nat → Bool) (c : Composition) (evicted : Option (Nat × Nat)) (k : Nat) : Prop where
  lt : k < 8
  frames : c.frames.length = 8
  gen : (frameAt c k).gen = (frameAt s.comp k).gen
  free : (∃ i, i < 8 ∧ ((frameAt s.comp i).state = .free ∨ meets i = true)) →
    evicted = none ∧ (∀ i, i < k → (frameAt c i).state ≠ .free) ∧ ((frameAt s.comp k).state = .free ∨ meets k = true)
      ∧ c.liveOrder = s.comp.liveOrder.filter (fun i => !meets i)
      ∧ ∀ i, frameAt c i = if meets i = true then FrameRec.vacant (frameAt s.comp i).gen else frameAt s.comp i
  full : ∀ first more, (∀ i, i < 8 → (frameAt s.comp i).state ≠ .free ∧ meets i = false) →
    s.comp.liveOrder = first :: more →
      evicted = some (first, (frameAt s.comp first).gen) ∧ k = first ∧ c.liveOrder = more.filter (fun i => i != first)
        ∧ ∀ i, i ≠ first → frameAt c i = frameAt s.comp i

section
variable {s : State} {meets : Nat → Bool} (hlen : s.comp.frames.length = 8)
include hlen

/-- A slot is FREE at the start of a job, or comes free with an overlapped record: the lowest is claimed (R49). -/
theorem slotClaimed_free (hm : ∀ i, meets i = true → i < 8 ∧ (frameAt s.comp i).state = .live)
    (h : ∃ i, i < 8 ∧ ((frameAt s.comp i).state = .free ∨ meets i = true)) :
    ∃ k c evicted, evict (releaseAll ((List.range 8).filter meets) s.comp) = (c, evicted) ∧ freeSlot c = some k
      ∧ SlotClaimed s meets c evicted k := by
  have mem : ∀ i, i ∈ (List.range 8).filter meets ↔ meets i = true := fun i => by
    simpa using fun hi => (hm i hi).1
  obtain ⟨released, -, -, -, -, hframes⟩ := releaseAll_spec ((List.range 8).filter meets) (List.nodup_range.filter _) s.comp
    fun i hi => by rw [(hm i ((mem i).mp hi)).2]; decide
  simp only [mem] at released
  obtain ⟨i, hi8, hi⟩ := id h
  have freed : (frameAt (releaseAll ((List.range 8).filter meets) s.comp) i).state = .free := by
    rw [released]
    split
    · rfl
    · next hn => exact hi.resolve_right hn
  obtain ⟨k, hk, hk8, hfree, hlow⟩ := freeSlot_spec _ ⟨i, hi8, freed⟩
  refine ⟨k, _, none, evict_free hk, hk, hk8, hframes.trans hlen, ?_, fun _ => ⟨rfl, hlow, ?_, ?_, released⟩,
    fun first more hnone _ => ?_⟩
  · rw [released]
    split <;> rfl
  · by_cases hmk : meets k = true
    · exact .inr hmk
    · rw [released, if_neg hmk] at hfree
      exact .inl hfree
  · rw [liveOrder_releaseAll]
    refine List.filter_congr fun i _ => ?_
    exact congrArg (!·) (Bool.eq_iff_iff.mpr (List.contains_iff_mem.trans (mem i)))
  · obtain ⟨hheld, hmi⟩ := hnone i hi8
    rcases hi with hi | hi
    · exact absurd hi hheld
    · rw [hmi] at hi
      cases hi

/-- No slot is FREE and no record is overlapped: the record first in the live order is evicted (R49). -/
theorem slotClaimed_full (h : ∀ i, i < 8 → (frameAt s.comp i).state ≠ .free ∧ meets i = false) {first : Nat} {more : List Nat}
    (ho : s.comp.liveOrder = first :: more) (hlt : first < 8) :
    ∃ k c evicted, evict (releaseAll ((List.range 8).filter meets) s.comp) = (c, evicted) ∧ freeSlot c = some k
      ∧ SlotClaimed s meets c evicted k := by
  have noHit : (List.range 8).filter meets = [] :=
    List.filter_eq_nil_iff.mpr fun i hi => by simp [(h i (List.mem_range.mp hi)).2]
  have held := fun i hi => (h i hi).1
  have freed := fun i => frameAt_releaseFrame first i s.comp (by rw [hlen]; exact hlt)
  rw [noHit]
  refine ⟨first, _, _, evict_full (freeSlot_none held) ho, freeSlot_evicted held hlt hlen, hlt,
    (releaseFrame_length _ _).trans hlen, ?_, fun ⟨i, hi8, hi⟩ => ?_, fun first' more' _ ho' => ?_⟩
  · rw [freed, if_pos rfl]
    rfl
  · obtain ⟨hheld, hmi⟩ := h i hi8
    rcases hi with hi | hi
    · exact absurd hi hheld
    · rw [hmi] at hi
      cases hi
  · cases ho.symm.trans ho'
    refine ⟨rfl, rfl, ?_, fun i hi => (freed i).trans (if_neg hi)⟩
    show s.comp.liveOrder.filter _ = _
    simp [ho]

end

/-- Settles O31: the path held or no claimant, then each claimant in its turn; a queued job starts in a slot that is FREE, or
in that of the record evicted for it. -/
theorem grantFollowsPrecedence : Obligations.GrantFollowsPrecedence := by
  intro s
  refine ⟨fun h => congrArg Host.Outcome.next (rasterPathGrant_waits h), fun ha hf =>
    ⟨fun before after e lo hi hr hb he hret hlt => ?_, fun hw => ⟨fun c hc hdirty => ?_, fun c hc hclean => ?_, fun hc =>
      ⟨fun j hj => congrArg Host.Outcome.next (rasterPathGrant_resumes ha hf hw hc hj), fun hn =>
        ⟨fun hq => congrArg Host.Outcome.next (rasterPathGrant_noJob ha hf hw hc hn hq),
          fun q rest meets hq hlen hm hroom => ?_⟩⟩⟩⟩⟩
  · obtain ⟨run, hentries, hrun⟩ := startRetint_starts hret
    obtain ⟨hlo, hhi, hcur, hred, hsup, hrel, hspan, hpaper⟩ := hrun
    have granted := rasterPathGrant_retint ha hf (waitingRetint_first hr hb he)
    rw [hr, runEntry_first run hb he] at hentries
    exact ⟨_, run, congrArg Host.Outcome.next granted, rfl, hentries, hlo, hhi, hcur, hred, hsup, hrel, hspan, hpaper,
      (frameAt_withFrame e.slot e.slot _ s.comp hlt).trans (if_pos rfl), rfl⟩
  · obtain ⟨i, t, ht, hd, hin⟩ := hdirty
    exact congrArg Host.Outcome.next
      ((rasterPathGrant_latch ha hf hw hc).trans (startLatch_begins (nextDirty_some ht hd hin)))
  · exact congrArg Host.Outcome.next
      ((rasterPathGrant_latch ha hf hw hc).trans (startLatch_ends hf (nextDirty_none hclean)))
  · have live : ∀ i, meets i = true → i < 8 ∧ (frameAt s.comp i).state = .live := fun i hi =>
      have ⟨h8, hl, _⟩ := (hm i).mp hi
      ⟨h8, hl⟩
    obtain ⟨k, c, evicted, he, hk, claim⟩ : ∃ k c evicted,
        evict (releaseAll ((List.range 8).filter meets) s.comp) = (c, evicted) ∧ freeSlot c = some k
          ∧ SlotClaimed s meets c evicted k := by
      by_cases hfree : ∃ i, i < 8 ∧ ((frameAt s.comp i).state = .free ∨ meets i = true)
      · exact slotClaimed_free hlen live hfree
      · obtain ⟨first, more, ho, hlt⟩ := hroom.resolve_left hfree
        simp only [not_exists, not_and, not_or, Bool.not_eq_true] at hfree
        exact slotClaimed_full hlen hfree ho hlt
    obtain ⟨j, st, hover⟩ := startJob_starts (overlapping_eq_filter hm) he hk rest
    have hkc : k < c.frames.length := by rw [claim.frames]; exact claim.lt
    have opened := st.opened hkc
    have after := st.frameAt_eq hkc
    obtain rfl := st.slot
    refine ⟨_, j, congrArg Host.Outcome.next (rasterPathGrant_job ha hf hw hc hn hq), st.path, st.jobs, st.started, st.spec,
      st.running, st.phase, st.abortAsked, st.missing, st.limit, st.spanLength, st.paper, ?_, ?_, ?_, ?_, ?_, hover, claim.lt,
      ?_, ?_, ?_, ?_, ?_, fun hfree => ?_, fun first more hfull ho hlt => ?_, st.rest⟩
    iterate 5 · rw [st.stack]; rfl
    · rw [opened]; rfl
    · rw [st.gen, claim.gen]
    iterate 3 · rw [opened]; rfl
    · obtain ⟨hev, hlow, hslot, horder, hframes⟩ := claim.free hfree
      refine ⟨st.evicted.trans hev, fun i hi => ?_, hslot, st.liveOrder.trans horder, fun i _ hi => ?_⟩
      · rw [after, if_neg (Nat.ne_of_lt hi)]
        exact hlow i hi
      · rw [after, if_neg hi, hframes]
    · obtain ⟨hev, hslot, horder, hframes⟩ := claim.full first more hfull ho
      refine ⟨st.evicted.trans hev, hslot, st.liveOrder.trans horder, fun i _ hi => ?_⟩
      rw [after, if_neg (by rw [hslot]; exact hi), hframes i hi]

end Sys2Proof.Machine
end

section
/-! SUPPORT. What justifying and shrinking give a line with gaps (R71, R72, R73). -/

namespace Sys2Proof.Machine

/-! ### Amounts taken from or added to sizes, place by place -/

theorem sum_zipWith_add {α : Type} (f : α → Nat) (l : List α) (e : List Nat) (hl : e.length = l.length) :
    (List.zipWith (fun a x => f a + x) l e).sum = (l.map f).sum + e.sum := by
  induction l generalizing e with
  | nil => simp [List.length_eq_zero_iff.mp hl]
  | cons a l ih =>
    cases e with
    | nil => simp at hl
    | cons x e =>
      have := ih e (by simpa using hl)
      simp only [List.zipWith_cons_cons, List.map_cons, List.sum_cons]
      omega

/-- What is taken from sizes it nowhere passes, and what stays, make up the sizes. -/
theorem sum_zipWith_sub {α : Type} (f : α → Nat) (l : List α) (e : List Nat) (hl : e.length = l.length)
    (hle : ∀ (i : Nat) (a : α) (x : Nat), l[i]? = some a → e[i]? = some x → x ≤ f a) :
    (List.zipWith (fun a x => f a - x) l e).sum + e.sum = (l.map f).sum := by
  induction l generalizing e with
  | nil => simp [List.length_eq_zero_iff.mp hl]
  | cons a l ih =>
    cases e with
    | nil => simp at hl
    | cons x e =>
      have head : x ≤ f a := hle 0 a x rfl rfl
      have tail := ih e (by simpa using hl) fun i => hle (i + 1)
      simp only [List.zipWith_cons_cons, List.map_cons, List.sum_cons]
      omega

/-! ### An amount distributed over gaps -/

/-- What is given out is the amount, or all the caps hold when that is less. -/
theorem distribute_sum (amount : Nat) (caps : List Nat) (h : 1 ≤ caps.length) :
    (distribute amount caps).1.sum = min amount caps.sum := by
  obtain ⟨hlen, hsum, hle, hfull⟩ := distribute_spec amount caps h
  have within := sum_zipWith_sub id caps _ hlen fun i c x hc hx => hle i x c hc hx
  rw [List.map_id] at within
  rcases Nat.eq_zero_or_pos (distribute amount caps).2 with hz | hpos
  · omega
  · rw [hfull hpos] at hsum ⊢
    omega

theorem distribute_gap_le {gaps : List Gap} (h : 1 ≤ gaps.length) (amount : Nat) (cap : Gap → Nat) {i : Nat} {g : Gap}
    {e : Nat} (hg : gaps[i]? = some g) (he : (distribute amount (gaps.map cap)).1[i]? = some e) : e ≤ cap g := by
  obtain ⟨-, -, within, -⟩ := distribute_spec amount (gaps.map cap) (by simpa using h)
  exact within i e (cap g) (by simp [hg]) he

/-- A gap's final size comes from an amount within its cap. -/
theorem distribute_gap_size {gaps : List Gap} (h : 1 ≤ gaps.length) (amount : Nat) (cap : Gap → Nat)
    (size : Gap → Nat → Nat) {i : Nat} {g : Gap} {x : Nat} (hg : gaps[i]? = some g)
    (hx : (List.zipWith size gaps (distribute amount (gaps.map cap)).1)[i]? = some x) : ∃ e ≤ cap g, size g e = x := by
  obtain ⟨g', e, hg', he, rfl⟩ := List.getElem?_zipWith_eq_some.mp hx
  obtain rfl : g = g' := Option.some.inj (hg.symm.trans hg')
  exact ⟨e, distribute_gap_le h amount cap hg he, rfl⟩

theorem distribute_gaps_length {gaps : List Gap} (h : 1 ≤ gaps.length) (amount : Nat) (cap : Gap → Nat) :
    (distribute amount (gaps.map cap)).1.length = gaps.length := by
  simpa using (distribute_spec amount (gaps.map cap) (by simpa using h)).1

/-! ### A justified line no wider than its column (R72) -/

/-- The stretch of each gap and the loose leftover. -/
def lineStretch (width natural : Nat) (gaps : List Gap) : List Nat × Nat :=
  distribute (width - natural) (gaps.map (fun g => g.max - g.natural))

theorem distributeLine_stretched {width natural : Nat} {gaps : List Gap} {ending : Ending} (h : 1 ≤ gaps.length)
    (hw : natural ≤ width) (he : ending = .fit ∨ ending = .hyphen ∨ ending = .split) :
    distributeLine width natural gaps .justify ending
      = ⟨List.zipWith (fun g x => g.natural + x) gaps (lineStretch width natural gaps).1,
          natural + (lineStretch width natural gaps).1.sum, (lineStretch width natural gaps).2⟩ := by
  rcases he with rfl | rfl | rfl <;> simp [distributeLine, lineStretch, isParaLast, h, hw]

/-- A gap at its full stretch has its greatest size. -/
theorem zipWith_natural_add_caps {gaps : List Gap} (hm : ∀ g ∈ gaps, g.natural ≤ g.max) :
    List.zipWith (fun g x => g.natural + x) gaps (gaps.map (fun g => g.max - g.natural)) = gaps.map (·.max) := by
  rw [List.zipWith_map_right, List.zipWith_self]
  exact List.map_congr_left fun g hg => Nat.add_sub_of_le (hm g hg)

theorem lineStretch_length {gaps : List Gap} (h : 1 ≤ gaps.length) (width natural : Nat) :
    (lineStretch width natural gaps).1.length = gaps.length := distribute_gaps_length h _ _

/-- The stretch and the leftover are the room the column has. -/
theorem lineStretch_sum {gaps : List Gap} (h : 1 ≤ gaps.length) (width natural : Nat) :
    (lineStretch width natural gaps).1.sum + (lineStretch width natural gaps).2 = width - natural := by
  obtain ⟨-, conserved, -, -⟩ :=
    distribute_spec (width - natural) (gaps.map (fun g => g.max - g.natural)) (by simpa using h)
  exact conserved

/-- Only a line whose gaps are all stretched to the full is loose. -/
theorem lineStretch_loose {gaps : List Gap} (h : 1 ≤ gaps.length) {width natural : Nat}
    (hl : 0 < (lineStretch width natural gaps).2) :
    (lineStretch width natural gaps).1 = gaps.map (fun g => g.max - g.natural) := by
  obtain ⟨-, -, -, full⟩ :=
    distribute_spec (width - natural) (gaps.map (fun g => g.max - g.natural)) (by simpa using h)
  exact full hl

/-! ### A line wider than its column (R71, R73) -/

/-- What each gap gives up, and the shortfall. -/
def lineShrink (width natural : Nat) (gaps : List Gap) : List Nat × Nat :=
  distribute (natural - width) (gaps.map (fun g => g.natural - g.min))

/-- A wide line shrinks whatever its alignment and its ending. -/
theorem distributeLine_shrunk {width natural : Nat} {gaps : List Gap} (h : 1 ≤ gaps.length) (hw : width < natural)
    (align : Align) (ending : Ending) :
    distributeLine width natural gaps align ending
      = ⟨List.zipWith (fun g x => g.natural - x) gaps (lineShrink width natural gaps).1,
          natural - (lineShrink width natural gaps).1.sum, 0⟩ := by
  simp [distributeLine, lineShrink, h, hw, Nat.not_le.mpr hw]

theorem lineShrink_length {gaps : List Gap} (h : 1 ≤ gaps.length) (width natural : Nat) :
    (lineShrink width natural gaps).1.length = gaps.length := distribute_gaps_length h _ _

/-- The gaps give up the excess, or all they can when that is less. -/
theorem lineShrink_sum {gaps : List Gap} (h : 1 ≤ gaps.length) (width natural : Nat) :
    (lineShrink width natural gaps).1.sum
      = min (natural - width) (gaps.map (fun g => g.natural - g.min)).sum := distribute_sum _ _ (by simpa using h)

/-- What the gaps of a shrunk line keep and give up make up their natural sizes. -/
theorem lineShrink_kept {gaps : List Gap} (h : 1 ≤ gaps.length) (width natural : Nat) :
    (List.zipWith (fun g x => g.natural - x) gaps (lineShrink width natural gaps).1).sum
        + (lineShrink width natural gaps).1.sum
      = (gaps.map (·.natural)).sum :=
  sum_zipWith_sub (·.natural) gaps _ (lineShrink_length h width natural) fun _ g _ hg he =>
    (distribute_gap_le h _ (fun g => g.natural - g.min) hg he).trans (Nat.sub_le g.natural g.min)

/-- Settles O35: the stretched line, then the shrunk one, each from what the two passes give out. -/
theorem justifiedLineFillsColumn : Obligations.JustifiedLineFillsColumn := by
  refine ⟨fun width natural gaps ending d h hw he hm hd => ?_, fun width natural gaps align ending d h hw hm _ hd => ?_⟩
  · rw [distributeLine_stretched h hw he] at hd
    subst hd
    have hlen := lineStretch_length h width natural
    have hsum := lineStretch_sum h width natural
    refine ⟨?fills, by simp [hlen], ?conserved, fun i g x hg hx => ?within, fun hl => ?loose⟩
    case fills => dsimp only; omega
    case conserved =>
      dsimp only
      rw [sum_zipWith_add (·.natural) gaps _ hlen]
      omega
    case within =>
      obtain ⟨e, he, rfl⟩ := distribute_gap_size h _ _ _ hg hx
      have := hm g (List.mem_of_getElem? hg)
      omega
    case loose => simp only [lineStretch_loose h hl, zipWith_natural_add_caps hm]
  · rw [distributeLine_shrunk h hw] at hd
    subst hd
    have hlen := lineShrink_length h width natural
    have hsum := lineShrink_sum h width natural
    have hkept := lineShrink_kept h width natural
    refine ⟨rfl, by simp [hlen], ?conserved, ?final, fun i g x hg hx => ?within⟩
    case conserved => dsimp only; omega
    case final => dsimp only; omega
    case within =>
      obtain ⟨e, he, rfl⟩ := distribute_gap_size h _ _ _ hg hx
      have := hm g (List.mem_of_getElem? hg)
      omega

end Sys2Proof.Machine
end

section
/-! SUPPORT. What the note table's requests answer: NOTE_LIST's pages, and NOTE_ADD, NOTE_CHANGE and NOTE_REMOVE by whether
the id is in the table (R81 to R86). -/

namespace Sys2Proof.Machine

/-! ### Requests of a ready part -/

theorem exec_noteAdd {s : State} (h : Ready s) (tag : Byte) (f : NoteFields) :
    exec (.noteAdd tag f) s = .next (decided tag 0x38#8 (takeNoteAdd f s)) :=
  congrArg Host.Outcome.next (present_ready h tag (.noteAdd f))

theorem exec_noteChange {s : State} (h : Ready s) (tag : Byte) (id : Nat) (c : NoteChanges) :
    exec (.noteChange tag id c) s = .next (decided tag 0x39#8 (takeNoteChange id c s)) :=
  congrArg Host.Outcome.next (present_ready h tag (.noteChange id c))

theorem exec_noteRemove {s : State} (h : Ready s) (tag : Byte) (id : Nat) :
    exec (.noteRemove tag id) s = .next (decided tag 0x3A#8 (takeNoteRemove id s)) :=
  congrArg Host.Outcome.next (present_ready h tag (.noteRemove id))

theorem exec_noteList {s : State} (h : Ready s) (tag : Byte) (afterId : Nat) :
    exec (.noteList tag afterId) s = .next (decided tag 0x3B#8 (takeNoteList afterId s)) :=
  congrArg Host.Outcome.next (present_ready h tag (.noteList afterId))

/-! ### NOTE_LIST (R86) -/

theorem insertNote_perm (before : Note → Note → Bool) (n : Note) (l : List Note) :
    (insertNote before n l).Perm (n :: l) := by
  induction l with
  | nil => exact .refl _
  | cons m rest ih =>
    rw [insertNote]
    split
    · exact .refl _
    · exact (ih.cons m).trans (.swap n m rest)

theorem sortNotes_perm (before : Note → Note → Bool) (l : List Note) : (sortNotes before l).Perm l := by
  induction l with
  | nil => exact .refl _
  | cons n rest ih => exact (insertNote_perm before n _).trans (ih.cons n)

/-- The notes with ids above one, in rising id order: what NOTE_LIST pages through (R86). -/
def notesAbove (afterId : Nat) (l : List Note) : List Note :=
  sortNotes (fun a b => decide (a.id < b.id)) (l.filter (fun n => decide (n.id > afterId)))

theorem takeNoteList_eq (afterId : Nat) (s : State) :
    takeNoteList afterId s
      = (s, .ok,
          .noteList s.notes.length ((notesAbove afterId s.notes).take 8)
            (decide (8 < (notesAbove afterId s.notes).length))) := rfl

theorem mem_notesAbove {afterId : Nat} {l : List Note} {n : Note} : n ∈ notesAbove afterId l ↔ n ∈ l ∧ afterId < n.id := by
  rw [notesAbove, (sortNotes_perm _ _).mem_iff]
  simp

theorem insertNote_byId {n : Note} {l : List Note} (h : l.Pairwise (fun a b => a.id ≤ b.id)) :
    (insertNote (fun a b => decide (a.id < b.id)) n l).Pairwise (fun a b => a.id ≤ b.id) := by
  induction l with
  | nil => exact List.pairwise_singleton _ n
  | cons m rest ih =>
    obtain ⟨hm, hrest⟩ := List.pairwise_cons.mp h
    rw [insertNote]
    split
    · next hlt =>
      have below : n.id < m.id := of_decide_eq_true hlt
      refine List.pairwise_cons.mpr ⟨fun k hk => ?_, h⟩
      rcases List.mem_cons.mp hk with rfl | hk
      · exact Nat.le_of_lt below
      · exact (Nat.le_of_lt below).trans (hm k hk)
    · next hge =>
      have above : m.id ≤ n.id := by simpa using hge
      refine List.pairwise_cons.mpr ⟨fun k hk => ?_, ih hrest⟩
      rcases List.mem_cons.mp ((insertNote_perm _ n rest).mem_iff.mp hk) with rfl | hk
      · exact above
      · exact hm k hk

theorem sortNotes_byId (l : List Note) :
    (sortNotes (fun a b => decide (a.id < b.id)) l).Pairwise (fun a b => a.id ≤ b.id) := by
  induction l with
  | nil => exact .nil
  | cons n rest ih => exact insertNote_byId ih

/-- Of distinct ids, the order is strict (R81, R86). -/
theorem notesAbove_rising (afterId : Nat) {l : List Note} (h : (l.map (·.id)).Nodup) :
    (notesAbove afterId l).Pairwise (fun a b => a.id < b.id) := by
  have distinct : ((notesAbove afterId l).map (·.id)).Nodup :=
    ((sortNotes_perm _ _).map _).nodup_iff.mpr (h.sublist (List.filter_sublist.map _))
  exact (sortNotes_byId _).imp₂ (fun _ _ hle hne => Nat.lt_of_le_of_ne hle hne) (List.pairwise_map.mp distinct)

/-- Settles O43: a page is the first eight of the notes above the given id, in rising order. -/
theorem noteListPages : Obligations.NoteListPages := by
  intro s tag afterId hs hd
  have rising := notesAbove_rising afterId hd
  refine ⟨(notesAbove afterId s.notes).take 8, decide (8 < (notesAbove afterId s.notes).length), ?_,
    List.length_take_le 8 _, List.pairwise_map.mpr (rising.sublist (List.take_sublist 8 _)),
    fun n hn => mem_notesAbove.mp (List.mem_of_mem_take hn), fun hall n hn ha => ?_, fun hmore => ⟨?_, fun n hn ha hout m hm => ?_⟩⟩
  · rw [exec_noteList hs, takeNoteList_eq, decided_eq]
  · rw [List.take_of_length_le (Nat.not_lt.mp (of_decide_eq_false hall))]
    exact mem_notesAbove.mpr ⟨hn, ha⟩
  · exact List.length_take_of_le (Nat.le_of_lt (of_decide_eq_true hmore))
  · have listed : n ∈ notesAbove afterId s.notes := mem_notesAbove.mpr ⟨hn, ha⟩
    rw [← List.take_append_drop 8 (notesAbove afterId s.notes)] at listed rising
    have later := (List.mem_append.mp listed).resolve_left hout
    exact (List.pairwise_append.mp rising).2.2 m hm n later

/-! ### Notes by their ids (R81) -/

theorem findNote_none {l : List Note} {id : Nat} (h : ∀ m ∈ l, m.id ≠ id) : findNote l id = none :=
  List.find?_eq_none.mpr fun m hm => by simpa using h m hm

section Held
variable {before after : List Note} {n : Note} (hb : ∀ m ∈ before, m.id ≠ n.id)
include hb

theorem findNote_held : findNote (before ++ n :: after) n.id = some n := by
  have passed : before.find? (fun m => m.id == n.id) = none := findNote_none hb
  simp [findNote, List.find?_append, passed]

variable (ha : ∀ m ∈ after, m.id ≠ n.id)
include ha

theorem filter_held : (before ++ n :: after).filter (fun m => m.id != n.id) = before ++ after := by
  have keeps : ∀ l : List Note, (∀ m ∈ l, m.id ≠ n.id) → l.filter (fun m => m.id != n.id) = l :=
    fun l hl => List.filter_eq_self.mpr fun m hm => by simpa using hl m hm
  simp [keeps before hb, keeps after ha]

theorem replaceNote_held {v : Note} (hv : v.id = n.id) : replaceNote (before ++ n :: after) v = before ++ v :: after := by
  have keeps : ∀ l : List Note, (∀ m ∈ l, m.id ≠ n.id) → l.map (fun m => if m.id = v.id then v else m) = l :=
    fun l hl => (List.map_congr_left fun m hm => if_neg (hv ▸ hl m hm)).trans (List.map_id l)
  rw [replaceNote, List.map_append, List.map_cons, keeps before hb, keeps after ha, if_pos hv.symm]

end Held

/-! ### NOTE_ADD, NOTE_CHANGE, NOTE_REMOVE (R83 to R85) -/

/-- A note's kind as NOTE_ADD gives it (R82). -/
def kindField : NoteKind → NoteKindField
  | .fill a => .fill a
  | .underline t => .underline t
  | .box => .box

/-- The fields with which NOTE_ADD gives a note (R83). -/
def fieldsOf (n : Note) : NoteFields :=
  ⟨some n.id, some n.flow, some n.start, some n.stop, some (kindField n.kind), some n.ink, some (sideCode n.side),
    n.marginGlyph, n.marginStyle, some n.marginText⟩

/-- A note whose fields lie in the ranges of Table 5-1. -/
structure NoteInRange (n : Note) : Prop where
  id_pos : 1 ≤ n.id
  id_le : n.id ≤ 65535
  flow : n.flow ≤ 3
  order : posLt n.start n.stop = true
  start : n.start.run ≤ 16384 ∧ n.start.off ≤ 31
  stop : n.stop.run ≤ 16384 ∧ n.stop.off ≤ 31
  ink : n.ink ≤ 15
  shade : ∀ a, n.kind = .fill a → 1 ≤ a ∧ a ≤ 8
  thickness : ∀ t, n.kind = .underline t → 1 ≤ t ∧ t ≤ 4
  glyph : ∀ g, n.marginGlyph = some g → g ≤ 4095
  style : ∀ g, n.marginStyle = some g → g ≤ 31
  text_length : n.marginText.length ≤ 32
  text : ∀ g ∈ n.marginText, g ≤ 4095

@[simp] theorem noteKindOf_kindField (k : NoteKind) : noteKindOf (kindField k) = some k := by cases k <;> rfl

@[simp] theorem sideOfCode_sideCode (v : Side) : sideOfCode (sideCode v) = some v := by cases v <;> rfl

/-- NOTE_ADD's fields of a note spell that note (R82). -/
theorem noteOf_fieldsOf (n : Note) : noteOf (fieldsOf n) = some n := by
  simp [noteOf, fieldsOf]

section InRange
variable {n : Note} (h : NoteInRange n)
include h

theorem NoteInRange.codes :
    codesWellFormed (fieldsOf n).kind (fieldsOf n).side (fieldsOf n).marginText = true := by
  simp [codesWellFormed, fieldsOf, h.text_length]

theorem NoteInRange.kind : kindInRange (kindField n.kind) = true := by
  cases hk : n.kind with
  | fill a => exact decide_eq_true (h.shade a hk)
  | underline t => exact decide_eq_true (h.thickness t hk)
  | box => rfl

theorem NoteInRange.fields :
    fieldsInRange (fieldsOf n).flow (fieldsOf n).start (fieldsOf n).stop (fieldsOf n).kind (fieldsOf n).ink
      (fieldsOf n).marginGlyph (fieldsOf n).marginStyle (fieldsOf n).marginText = true := by
  simpa [fieldsInRange, fieldsOf, posInRange, Config.flowPlaces, h.kind, h.flow, h.start, h.stop, h.ink, Option.all_eq_true]
    using ⟨⟨h.glyph, h.style⟩, h.text⟩

/-- NOTE_ADD of a note in range is decided by its id and the room in the table (R83). -/
theorem takeNoteAdd_inRange (s : State) :
    takeNoteAdd (fieldsOf n) s
      = if (findNote s.notes n.id).isSome then (s, .exists_, .none)
        else if s.notes.length ≥ 128 then (s, .full, .none)
        else
          ({ s with notes := s.notes ++ [n], comp := (reachFrames n.flow none (some (n.start, n.stop)) s.comp).1 }, .ok,
            .reached (reachFrames n.flow none (some (n.start, n.stop)) s.comp).2) := by
  simp [takeNoteAdd, noteOf_fieldsOf, h.codes, h.fields, h.id_pos, h.id_le, h.order, Config.maxNotes]

/-- NOTE_CHANGE of the ink alone replaces the note and reaches its records by its unchanged range (R84, R93). -/
theorem takeNoteChange_ink {s : State} (hf : findNote s.notes n.id = some n) {ink : Nat} (hi : ink ≤ 15) :
    takeNoteChange n.id ⟨none, none, none, none, some ink, none, .keep, .keep, none⟩ s
      = ({ s with
            notes := replaceNote s.notes { n with ink := ink }
            comp := (reachFrames n.flow (some (n.start, n.stop)) (some (n.start, n.stop)) s.comp).1 },
          .ok,
          .noteChanged { n with ink := ink }
            (reachFrames n.flow (some (n.start, n.stop)) (some (n.start, n.stop)) s.comp).2) := by
  have hid : n.id ≠ 0 := Nat.ne_of_gt h.id_pos
  simp [takeNoteChange, codesWellFormed, fieldsInRange, changeValue, changedNote, applyChange, hi, hid, hf, h.order]

end InRange

theorem takeNoteRemove_none {s : State} {id : Nat} (hid : 1 ≤ id) (hf : findNote s.notes id = none) :
    takeNoteRemove id s = (s, .notFound, .none) := by
  rw [takeNoteRemove, if_neg (Nat.ne_of_gt hid), hf]

/-- NOTE_REMOVE takes a stored note out and reaches its records by its range (R85, R93). -/
theorem takeNoteRemove_some {s : State} {id : Nat} (hid : 1 ≤ id) {n : Note} (hf : findNote s.notes id = some n) :
    takeNoteRemove id s
      = ({ s with
            notes := s.notes.filter (fun m => m.id != id)
            comp := (reachFrames n.flow (some (n.start, n.stop)) none s.comp).1 },
          .ok, .reached (reachFrames n.flow (some (n.start, n.stop)) none s.comp).2) := by
  rw [takeNoteRemove, if_neg (Nat.ne_of_gt hid), hf]

/-- Settles O41: the three requests by whether the id is in the table. -/
theorem noteRequestsChangeTable : Obligations.NoteRequestsChangeTable := by
  intro s tag n f hs hf hid hid' hflow horder hsr hso htr hto hink hshade hthick hglyph hstyle hlen htext
  have range : NoteInRange n :=
    ⟨hid, hid', hflow, horder, ⟨hsr, hso⟩, ⟨htr, hto⟩, hink, hshade, hthick, hglyph, hstyle, hlen, htext⟩
  obtain rfl : f = fieldsOf n := by
    rw [hf, fieldsOf]
    cases n.kind <;> rfl
  simp only [exec_noteAdd hs, exec_noteRemove hs, exec_noteChange hs, takeNoteAdd_inRange range, decided_eq]
  refine ⟨fun hnew => ?_, fun before after hnotes hb ha => ?_⟩
  · have absent := findNote_none hnew
    refine ⟨fun hroom => ⟨_, _, ?_, Prod.mk.eta⟩, fun hfull => ?_, ?_⟩
    · rw [if_neg (by simp [absent]), if_neg (Nat.not_le.mpr hroom)]
    · rw [if_neg (by simp [absent]), if_pos hfull]
    · rw [takeNoteRemove_none hid absent]
  · have held : findNote s.notes n.id = some n := hnotes ▸ findNote_held hb
    refine ⟨?_, ⟨_, _, ?_, Prod.mk.eta⟩, fun ink hi => ⟨_, _, ?_, Prod.mk.eta⟩⟩
    · rw [if_pos (by simp [held])]
    · rw [takeNoteRemove_some hid held, hnotes, filter_held hb ha]
    · rw [takeNoteChange_ink range held hi, hnotes, replaceNote_held hb ha (v := { n with ink := ink }) rfl]

end Sys2Proof.Machine
end

section
/-! SUPPORT. How a note request reaches one frame record: the lines it reaches, the range they are gathered into, and what a
running retint job takes of them (R93, R94, R96, R99). -/

namespace Sys2Proof.Machine

/-! ### The lines reached and their range (R93) -/

theorem mem_reachedLines (f : FrameRec) (old new : Option (Pos × Pos)) (i : Nat) :
    i ∈ reachedLines f old new ↔
      ∃ l ∈ f.lines, l.index = i
        ∧ ∃ r, (old = some r ∨ new = some r) ∧ posLt l.start r.2 = true ∧ posLt r.1 l.stop = true := by
  have meets : ∀ (l : LineRec) (o : Option (Pos × Pos)),
      o.any (fun r => rangesMeet l.start l.stop r.1 r.2) = true
        ↔ ∃ r, o = some r ∧ posLt l.start r.2 = true ∧ posLt r.1 l.stop = true := by
    intro l o
    simp only [Option.any_eq_true, rangesMeet, Bool.and_eq_true]
  simp only [reachedLines, List.mem_map, List.mem_filter, Bool.or_eq_true, meets, or_and_right, exists_or]
  constructor
  · rintro ⟨l, ⟨hl, hr⟩, hi⟩
    exact ⟨l, hl, hi, hr⟩
  · rintro ⟨l, hl, hi, hr⟩
    exact ⟨l, ⟨hl, hr⟩, hi⟩

/-- Lines gathered into a range that is there already (R93). -/
theorem gatherRange_some (lines : List Nat) (a b : Nat) :
    ∃ lo hi, gatherRange (some (a, b)) lines = some (lo, hi)
      ∧ (lo ∈ lines ∨ lo = a) ∧ (hi ∈ lines ∨ hi = b) ∧ (∀ i ∈ lines, lo ≤ i ∧ i ≤ hi) ∧ lo ≤ a ∧ b ≤ hi := by
  induction lines generalizing a b with
  | nil => exact ⟨a, b, rfl, .inr rfl, .inr rfl, by simp, Nat.le_refl a, Nat.le_refl b⟩
  | cons k rest ih =>
    obtain ⟨lo, hi, heq, hlo, hhi, hall, hla, hbh⟩ := ih (min a k) (max b k)
    refine ⟨lo, hi, heq, ?_, ?_, fun i hi => ?_, by omega, by omega⟩
    · rcases hlo with hlo | hlo
      · exact .inl (List.mem_cons_of_mem k hlo)
      · rw [List.mem_cons]
        omega
    · rcases hhi with hhi | hhi
      · exact .inl (List.mem_cons_of_mem k hhi)
      · rw [List.mem_cons]
        omega
    · rcases List.mem_cons.mp hi with rfl | hi
      · omega
      · exact hall i hi

theorem gatherRange_gathered (old : Option (Nat × Nat)) (lines : List Nat) : Gathered old lines (gatherRange old lines) := by
  refine ⟨fun h => by rw [h]; rfl, fun hne => ?_⟩
  cases old with
  | some r =>
    obtain ⟨a, b⟩ := r
    obtain ⟨lo, hi, heq, hlo, hhi, hall, hla, hbh⟩ := gatherRange_some lines a b
    refine ⟨lo, hi, heq, hlo.imp_right fun h => ⟨b, by rw [h]⟩, hhi.imp_right fun h => ⟨a, by rw [h]⟩, hall, ?_⟩
    rintro _ _ ⟨⟩
    exact ⟨hla, hbh⟩
  | none =>
    obtain ⟨k, rest, rfl⟩ := List.exists_cons_of_ne_nil hne
    obtain ⟨lo, hi, heq, hlo, hhi, hall, hla, hbh⟩ := gatherRange_some rest k k
    refine ⟨lo, hi, heq, .inl ?_, .inl ?_, fun i hi => ?_, by simp⟩
    · rw [List.mem_cons]
      exact hlo.symm
    · rw [List.mem_cons]
      exact hhi.symm
    · rcases List.mem_cons.mp hi with rfl | hi
      · exact ⟨hla, hbh⟩
      · exact hall i hi

/-! ### What a running retint job takes (R94, R99) -/

theorem overlayBegun_iff (v : RetintStage) : overlayBegun v = true ↔ ∃ w, v = .overlay w := by
  cases v <;> simp [overlayBegun]

theorem leftToJob_iff (r : RetintRun) (i : Nat) :
    leftToJob r i = true ↔ r.current ≤ i ∧ i ≤ r.hi ∧ (i = r.current → ∀ w, r.stage ≠ .overlay w) := by
  have begun := overlayBegun_iff r.stage
  rw [leftToJob, Bool.and_eq_true, decide_eq_true_iff, and_assoc, Bool.not_eq_true', Bool.and_eq_false_imp, beq_iff_eq,
    ← Bool.not_eq_true, begun, not_exists]

/-- With one running job of the record, the lines it does not draw are those not left to it (R94). -/
theorem notLeftToJob_eq {c : Composition} {slot gen : Nat} {r : RetintRun} (hr : ⟨slot, gen, some r⟩ ∈ c.retints)
    (hone : ∀ e ∈ c.retints, e.slot = slot → e.gen = gen → e.run = none ∨ e.run = some r) (lines : List Nat) :
    notLeftToJob c slot gen lines = lines.filter (fun i => !leftToJob r i) := by
  have found : c.retints.find? (fun e => e.slot == slot && e.gen == gen && e.run.isSome) = some ⟨slot, gen, some r⟩ := by
    cases hf : c.retints.find? (fun e => e.slot == slot && e.gen == gen && e.run.isSome) with
    | none => simpa using List.find?_eq_none.mp hf _ hr
    | some e =>
      obtain ⟨eslot, egen, erun⟩ := e
      have matched := List.find?_some hf
      simp only [Bool.and_eq_true, beq_iff_eq] at matched
      obtain ⟨⟨rfl, rfl⟩, hsome⟩ := matched
      rcases hone _ (List.mem_of_find?_eq_some hf) rfl rfl with hrun | hrun
      · simp only at hrun hsome
        rw [hrun] at hsome
        cases hsome
      · simp only at hrun
        rw [hrun]
  rw [notLeftToJob, found]

/-! ### One frame record (R93, R94, R96) -/

/-- A record with lines gathered into its pending range (R93). -/
def withPending (lines : List Nat) (f : FrameRec) : FrameRec := { f with retint := gatherRange f.retint lines }

/-- A record with lines gathered into its late range (R96). -/
def withLate (lines : List Nat) (f : FrameRec) : FrameRec := { f with late := gatherRange f.late lines }

section Record
variable {c : Composition} {flow slot : Nat} {f : FrameRec} {old new : Option (Pos × Pos)} (hf : c.frames[slot]? = some f)
include hf

/-- A record put into its slot stands there, and every other slot keeps its own. -/
theorem frameAt_withFrame_held (g : FrameRec) :
    frameAt (withFrame slot g c) slot = g ∧ ∀ i, i ≠ slot → frameAt (withFrame slot g c) i = frameAt c i := by
  obtain ⟨hlt, -⟩ := List.getElem?_eq_some_iff.mp hf
  exact ⟨by rw [frameAt_withFrame slot slot g c hlt, if_pos rfl],
    fun i hi => by rw [frameAt_withFrame slot i g c hlt, if_neg hi]⟩

theorem reachFrame_unreached
    (h : f.state = .free ∨ f.flow ≠ flow ∨ reachedLines f old new = [] ∨ (f.state = .opened ∧ f.snapshot = none)) :
    reachFrame flow old new slot c = (c, false) := by
  simp only [reachFrame, frameAt_of_some hf]
  rcases h with h | h | h | ⟨ho, hs⟩
  · simp [h]
  · simp [h]
  · simp [h]
  · simp [ho, hs]

variable (hflow : f.flow = flow) (hne : reachedLines f old new ≠ [])
include hflow hne

theorem reachFrame_opened (ho : f.state = .opened) (hs : f.snapshot ≠ none) :
    reachFrame flow old new slot c = (withFrame slot (withLate (reachedLines f old new) f) c, true) := by
  simp [reachFrame, withLate, frameAt_of_some hf, hflow, hne, ho, hs]

theorem reachFrame_running (hl : f.state = .live) (hr : retintRuns c slot f.gen = true) :
    reachFrame flow old new slot c
      = (withFrame slot (withPending (notLeftToJob c slot f.gen (reachedLines f old new)) f) c, true) := by
  simp [reachFrame, withPending, frameAt_of_some hf, hflow, hne, hl, hr]

theorem reachFrame_live (hl : f.state = .live) (hr : retintRuns c slot f.gen = false) :
    reachFrame flow old new slot c
      = (if retintWaits c slot f.gen then withFrame slot (withPending (reachedLines f old new) f) c
          else enqueueRetint slot f.gen (withFrame slot (withPending (reachedLines f old new) f) c), true) := by
  simp [reachFrame, withPending, frameAt_of_some hf, hflow, hne, hl, hr]

end Record

/-- Settles O42: a reached record by its state and by whether its retint job runs. -/
theorem noteReachesFrame : Obligations.NoteReachesFrame := by
  intro c flow slot f old new hf
  have put := frameAt_withFrame_held hf
  refine ⟨mem_reachedLines f old new, reachFrame_unreached hf, fun hflow hne =>
    ⟨fun hl hidle => ?_, fun r left hl hr hone hleft => ?_, fun ho hs => ?_⟩⟩
  · have idle : retintRuns c slot f.gen = false := by
      rw [← Bool.not_eq_true, retintRuns_iff]
      rintro ⟨e, he, hslot, hgen, hrun⟩
      exact hrun (hidle e he hslot hgen)
    have waits : retintWaits c slot f.gen = true ↔ ∃ e ∈ c.retints, e.slot = slot ∧ e.gen = f.gen := by
      rw [retintWaits_iff]
      exact exists_congr fun e => and_congr_right fun he =>
        ⟨fun ⟨hslot, hgen, _⟩ => ⟨hslot, hgen⟩, fun ⟨hslot, hgen⟩ => ⟨hslot, hgen, hidle e he hslot hgen⟩⟩
    refine ⟨_, gatherRange f.retint (reachedLines f old new), reachFrame_live hf hflow hne hl idle, ?_⟩
    simp only [← waits]
    obtain ⟨hslot, hother⟩ := put (withPending (reachedLines f old new) f)
    split
    · exact ⟨hslot, gatherRange_gathered _ _, hother, rfl⟩
    · exact ⟨hslot, gatherRange_gathered _ _, hother, rfl⟩
  · have runs : retintRuns c slot f.gen = true := (retintRuns_iff c slot f.gen).mpr ⟨_, hr, rfl, rfl, Option.some_ne_none r⟩
    have same : left = leftToJob r := funext fun i => Bool.eq_iff_iff.mpr ((hleft i).trans (leftToJob_iff r i).symm)
    obtain ⟨hslot, hother⟩ := put (withPending (notLeftToJob c slot f.gen (reachedLines f old new)) f)
    refine ⟨_, _, reachFrame_running hf hflow hne hl runs, hslot, ?_, hother, rfl⟩
    rw [same, notLeftToJob_eq hr hone]
    exact gatherRange_gathered _ _
  · obtain ⟨hslot, hother⟩ := put (withLate (reachedLines f old new) f)
    exact ⟨_, _, reachFrame_opened hf hflow hne ho hs, hslot, gatherRange_gathered _ _, hother, rfl⟩

end Sys2Proof.Machine
end

section
/-! SUPPORT. The redrawing of a running retint job's current line, at once or operation by operation, and the end of the job
(R97 to R100, R104 to R106, R109). -/

namespace Sys2Proof.Machine

/-! ### A retint's operations -/

theorem runningJob_none {s : State} (h : ∀ j, s.comp.started = some j → j.running = false) : runningJob s = none := by
  cases hs : s.comp.started with
  | none => simp [runningJob, hs]
  | some j => simp [runningJob, hs, h j hs]

theorem bandFill_drawn (run : RetintRun) (line : LineRec) (s : State) : Drawn s (bandFill run line s) :=
  drawRect_drawn _ _ _ s

/-- The stage after some spans of a line: the next span while entries are left, else its overlay (R98, R99). -/
theorem stageAfterSpans_eq {run : RetintRun} (hL : 1 ≤ run.spanLength) (line : LineRec) (entries : List DrawEntry)
    (span : Nat) (s : State) :
    stageAfterSpans run line entries span s
      = if span * run.spanLength < entries.length then .glyphs entries span
        else .overlay (beginRetintOverlay run line s) := by
  simp only [stageAfterSpans, ge_iff_le, spanCount_le_iff hL, ← Nat.not_lt, ite_not]

/-! ### The running entry of the retint queue (R45, R47) -/

/-- The retint queue's running job, and the entries that wait before and after it (R45). -/
structure RetintRunsAmid (c : Composition) (before after : List RetintEntry) (slot gen : Nat) (run : RetintRun) : Prop where
  queue : c.retints = before ++ ⟨slot, gen, some run⟩ :: after
  before_waits : ∀ e ∈ before, e.run = none
  after_waits : ∀ e ∈ after, e.run = none

/-- A state that drawing has left as `d`, with the running retint job moved on. -/
def retintMovedTo (s d : State) (before after : List RetintEntry) (slot gen : Nat) (run : RetintRun) : State :=
  { d with comp := { s.comp with retints := before ++ ⟨slot, gen, some run⟩ :: after } }

/-- What the end of a retint job leaves in its queue: the waiting jobs, and one more for the lines still pending on its
record, unless that is released (R100). -/
def retintsAfter (c : Composition) (before after : List RetintEntry) (slot gen : Nat) (released : Bool) : List RetintEntry :=
  if released = true ∨ (frameAt c slot).retint = none then before ++ after else before ++ after ++ [⟨slot, gen, none⟩]

section Running
variable {s : State} {before after : List RetintEntry} {slot gen : Nat} {run : RetintRun}
  (h : RetintRunsAmid s.comp before after slot gen run)
include h

theorem RetintRunsAmid.runningRetint (hp : s.comp.path = .retintJob) :
    runningRetint s = some (⟨slot, gen, some run⟩, run) := by
  have passed : before.find? (fun e => e.run.isSome) = none :=
    List.find?_eq_none.mpr fun e he => by simp [h.before_waits e he]
  simp [Machine.runningRetint, hp, h.queue, List.find?_append, passed]

/-- Only the running entry is replaced. -/
theorem RetintRunsAmid.withRun (run' : RetintRun) :
    withRun run' s.comp = { s.comp with retints := before ++ ⟨slot, gen, some run'⟩ :: after } := by
  have keeps : ∀ l : List RetintEntry, (∀ e ∈ l, e.run = none) →
      l.map (fun e => if e.run.isSome then { e with run := some run' } else e) = l :=
    fun l hl => (List.map_congr_left fun e he => if_neg (by simp [hl e he])).trans (List.map_id l)
  rw [Machine.withRun, h.queue, List.map_append, List.map_cons, keeps before h.before_waits, keeps after h.after_waits]
  rfl

/-- Without the running entry the waiting ones remain (R100). -/
theorem RetintRunsAmid.waiting : s.comp.retints.filter (fun e => e.run.isNone) = before ++ after := by
  have keeps : ∀ l : List RetintEntry, (∀ e ∈ l, e.run = none) → l.filter (fun e => e.run.isNone) = l :=
    fun l hl => List.filter_eq_self.mpr fun e he => by simp [hl e he]
  rw [h.queue, List.filter_append, List.filter_cons, keeps before h.before_waits, keeps after h.after_waits]
  rfl

theorem RetintRunsAmid.withStage {d : State} (hd : Drawn s d) (stage : RetintStage) :
    withStage run stage d = retintMovedTo s d before after slot gen { run with stage := stage } := by
  rw [Machine.withStage, hd.comp, h.withRun, retintMovedTo]

/-! ### RETINT_LINE_REDRAWN (R98, R100) -/

/-- A retint job ends: it leaves the queue, frees the path and posts RETINT_DONE (R100). -/
theorem RetintRunsAmid.endRetint {d : State} (hd : Drawn s d) (last : RetintRun) :
    endRetint ⟨slot, gen, some last⟩ last d
      = post
        (.retintDone slot gen last.lo last.hi last.redrawn (min last.suppressed 65535) last.released)
        { d with
          comp :=
            { s.comp with path := .free, retints := retintsAfter s.comp before after slot gen last.released } } := by
  have record : frameAt { s.comp with retints := before ++ after, path := .free } slot = frameAt s.comp slot := rfl
  simp only [Machine.endRetint, hd.comp, h.waiting, record, retintsAfter, sat16]
  by_cases hr : last.released = true
  · simp [hr]
  · by_cases hf : (frameAt s.comp slot).retint = none
    · simp [hf]
    · simp [hr, hf, enqueueRetint]

variable (hp : s.comp.path = .retintJob) {line : LineRec} (hl : run.frame.lines[run.current]? = some line)
include hp hl

/-- The job moves on to the next line of its range (R98). -/
theorem RetintRunsAmid.redrawn_goes (hr : run.released = false) (hm : run.current < run.hi) :
    retintLineRedrawn s
      = retintMovedTo s (redrawLine run line s).state before after slot gen (movedOn run (redrawLine run line s)) := by
  have goes : (run.released || decide (run.current ≥ run.hi)) = false := by simp [hr, hm]
  simp only [retintLineRedrawn, h.runningRetint hp, hl, goes, (redrawLine_drawn run line s).comp]
  rw [if_neg Bool.false_ne_true, h.withRun]
  rfl

/-- The job ends after the last line of its range, or once its record is released (R100). -/
theorem RetintRunsAmid.redrawn_ends (hr : run.released = true ∨ run.hi ≤ run.current) :
    retintLineRedrawn s
      = Machine.endRetint ⟨slot, gen, some (movedOn run (redrawLine run line s))⟩ (movedOn run (redrawLine run line s))
        (redrawLine run line s).state := by
  have ends : (run.released || decide (run.current ≥ run.hi)) = true := by simpa using hr
  simp only [retintLineRedrawn, h.runningRetint hp, hl, ends]
  rfl

/-! ### The line's operations one by one (R98, R104, R109, R113) -/

/-- With no compose job RUNNING an operation of the current line is the retint's (log entry 31). -/
theorem RetintRunsAmid.retintOp (op : RetintRun → LineRec → State → State) : retintOp op s = op run line s := by
  simp only [Machine.retintOp, h.runningRetint hp, hl]

variable (hidle : ∀ j, s.comp.started = some j → j.running = false)
include hidle

/-- PAGE_PAPER_FILL fills the band of a line that has had no operation yet (R98, R106; log entry 31). -/
theorem RetintRunsAmid.pagePaperFill (hstage : run.stage = .paper) :
    pagePaperFill s
      = retintMovedTo s (bandFill run line s) before after slot gen
        { run with
          stage := stageAfterSpans run line (retintEntries run line (bandFill run line s)) 0 (bandFill run line s) } := by
  rw [Machine.pagePaperFill, runningJob_none hidle]
  simp only [h.retintOp hp hl, retintBandFilled, hstage]
  exact h.withStage (bandFill_drawn run line s) _

/-- GLYPH_SPAN_DRAWN draws a span of the line (R98, R109; log entry 31). -/
theorem RetintRunsAmid.glyphSpanDrawn {entries : List DrawEntry} {k : Nat} (hstage : run.stage = .glyphs entries k)
    {d : State} (hd : d = drawEntries run.frame.rect ((entries.drop (k * run.spanLength)).take run.spanLength) s) :
    glyphSpanDrawn s
      = retintMovedTo s d before after slot gen
        { run with stage := stageAfterSpans run line entries (k + 1) d } := by
  rw [Machine.glyphSpanDrawn, runningJob_none hidle]
  simp only [h.retintOp hp hl, retintSpanDrawn, hstage]
  subst hd
  exact h.withStage (drawEntries_drawn _ _ s) _

end Running

/-! ### The band fill (R98, R106) -/

/-- A pixel lies in a clipped rectangle when it lies in both (R105). -/
theorem mem_clipRect (x y : Int) (w h : Nat) (clip : PRect) (px py : Nat) :
    ((clipRect x y w h clip).x ≤ px ∧ px < (clipRect x y w h clip).x + (clipRect x y w h clip).w
        ∧ (clipRect x y w h clip).y ≤ py ∧ py < (clipRect x y w h clip).y + (clipRect x y w h clip).h)
      ↔ (clip.x ≤ px ∧ px < clip.x + clip.w ∧ x ≤ px ∧ (px : Int) < x + w)
        ∧ (clip.y ≤ py ∧ py < clip.y + clip.h ∧ y ≤ py ∧ (py : Int) < y + h) := by
  rw [← mem_clipSpan x w clip.x (clip.x + clip.w) px, ← mem_clipSpan y h clip.y (clip.y + clip.h) py, and_assoc]
  rfl

/-- A record's area lies within the panel's columns (R49). -/
theorem frameArea_columns (s : State) (f : FrameRec) :
    (frameArea s f).w = 0 ∨ (frameArea s f).x + (frameArea s f).w ≤ panelWidth s := by
  have stop := clipSpan_stop ((f.rect.x : Int) - f.marginLeft) (f.rect.w + f.marginLeft + f.marginRight) 0 (0 + panelWidth s)
  rw [Nat.zero_add] at stop
  simpa [frameArea, areaOf, clipRect, panelRect] using stop

/-- The band fill sets the pixels of the line's band inside the record's area to paper, and no other (R98, R106). -/
theorem pixelAt_bandFill {s : State} (hw : PlaneWf s.planes.w) (hpanel : panelWidth s ≤ 4096) (run : RetintRun) (line : LineRec)
    {a : PRect} (ha : a = frameArea s run.frame) (x y : Nat) (hx : x < 4096) :
    pixelAt (bandFill run line s).planes.w x y
      = if a.x ≤ x ∧ x < a.x + a.w ∧ a.y ≤ y ∧ y < a.y + a.h ∧ run.frame.rect.y + line.top ≤ y
          ∧ y < run.frame.rect.y + line.top + line.height then run.paper
        else pixelAt s.planes.w x y := by
  subst ha
  generalize hr : clipRect (frameArea s run.frame).x ((run.frame.rect.y + line.top : Nat) : Int) (frameArea s run.frame).w
    line.height (frameArea s run.frame) = r
  have filled : (bandFill run line s).planes.w = planeRect r (fun _ _ _ => run.paper) s.planes.w := by
    rw [← hr]
    rfl
  have columns : r.w = 0 ∨ r.x + r.w ≤ 4096 := by
    have stop := clipSpan_stop (frameArea s run.frame).x (frameArea s run.frame).w (frameArea s run.frame).x
      ((frameArea s run.frame).x + (frameArea s run.frame).w)
    have area := frameArea_columns s run.frame
    rw [← hr]
    simp only [clipRect, clipSpan] at stop ⊢
    omega
  rw [filled, pixelAt_planeRect r _ _ hw columns x y hx, ← hr]
  simp only [mem_clipRect]
  refine if_congr ?_ rfl rfl
  omega

/-- Settles O39: the line at once, the job going on or ending; then the band fill and a span as operations of their own. -/
theorem retintRedrawsLine : Obligations.RetintRedrawsLine := by
  intro s before after slot gen run line hp hq hb ha hl
  have h : RetintRunsAmid s.comp before after slot gen run := ⟨hq, hb, ha⟩
  refine ⟨⟨_, rfl, (redrawLine_drawn run line s).eq, fun hr hm => congrArg Host.Outcome.next ?goes,
    fun hend => congrArg Host.Outcome.next ?ends⟩, fun hidle => ⟨fun hstage => ?fill, fun entries k hstage hL hk => ?span⟩⟩
  case goes => exact h.redrawn_goes hp hl hr hm
  case ends => exact (h.redrawn_ends hp hl hend).trans (h.endRetint (redrawLine_drawn run line s) _)
  case fill =>
    refine ⟨_, _, congrArg Host.Outcome.next (h.pagePaperFill hp hl hidle hstage), (bandFill_drawn run line s).eq,
      fun hne hL => ?_, fun hnil hL => ?_,
      fun hw hpanel a x y hx harea => pixelAt_bandFill hw hpanel run line harea x y hx⟩
    · rw [stageAfterSpans_eq hL, if_pos]
      rw [Nat.zero_mul]
      exact List.length_pos_of_ne_nil hne
    · rw [stageAfterSpans_eq hL, if_neg]
      simp [hnil]
  case span =>
    refine ⟨_, rfl, (drawEntries_drawn _ _ s).eq, congrArg Host.Outcome.next ?_⟩
    rw [← stageAfterSpans_eq hL]
    exact h.glyphSpanDrawn hp hl hidle hstage rfl

end Sys2Proof.Machine
end

section
/-! SUPPORT. Strokes: drawing and copying change a plane row of keys by row of keys, and what such rows keep of it: its form, its
levels, and, when they only darken, every level as an upper bound (R101, R105 to R107, R112). -/

namespace Sys2Proof.Machine

/-! ### Rows of a plane -/

/-- One row of keys takes new levels, by a function that a condition allows. -/
def Stroke (ok : (Nat → Nat → Nat) → Prop) (p q : Plane) : Prop := ∃ f n k, ok f ∧ q = planeRow f n k p

/-- A plane after any number of strokes. -/
abbrev Painted (ok : (Nat → Nat → Nat) → Prop) : Plane → Plane → Prop := Relation.ReflTransGen (Stroke ok)

/-- A row's function that makes no key lighter (R112). -/
def Darkens (f : Nat → Nat → Nat) : Prop := ∀ k l, f k l ≤ l

/-- A row's function that keeps levels within 0..15 (R101). -/
def KeepsRange (f : Nat → Nat → Nat) : Prop := ∀ k l, l ≤ 15 → f k l ≤ 15

/-- Every level of a plane lies in 0..15 (R101). -/
def InRange (p : Plane) : Prop := ∀ e ∈ p, e.2 ≤ 15

/-- A plane whose entries all stand in a plane in range is in range. -/
theorem InRange.subset {p q : Plane} (h : InRange p) (hq : q ⊆ p) : InRange q := fun e he => h e (hq he)

theorem InRange.append {p q : Plane} (hp : InRange p) (hq : InRange q) : InRange (p ++ q) :=
  fun e he => (List.mem_append.mp he).elim (hp e) (hq e)

theorem InRange.planeCons {k l : Nat} {p : Plane} (hl : l ≤ 15) (hp : InRange p) : InRange (planeCons k l p) := by
  unfold Machine.planeCons
  split
  · exact hp
  · exact List.forall_mem_cons.mpr ⟨hl, hp⟩

/-- A key of a plane in range reads as a level in range; one that is not listed reads as 15 (R103). -/
theorem InRange.planeGet {p : Plane} (hp : InRange p) (j : Nat) : planeGet p j ≤ 15 := by
  induction p with
  | nil => exact Nat.le_refl 15
  | cons e p ih =>
    obtain ⟨hl, hp⟩ := List.forall_mem_cons.mp hp
    rw [Machine.planeGet]
    split
    · exact hl
    · exact ih hp

theorem InRange.planeRow {f : Nat → Nat → Nat} (hf : KeepsRange f) (n : Nat) :
    ∀ (k : Nat) {p : Plane}, InRange p → InRange (planeRow f n k p) := by
  induction n with
  | zero => exact fun _ _ hp => hp
  | succ n ih =>
    intro k p hp
    have unlisted : f k 15 ≤ 15 := hf k 15 (Nat.le_refl 15)
    have after := hp.subset (List.dropWhile_sublist (fun e => decide (e.1 < k))).subset
    rw [planeRow_succ]
    refine (hp.subset (List.takeWhile_sublist _).subset).append ?_
    split
    · exact .planeCons unlisted (ih _ (fun _ he => nomatch he))
    · next k' l t heq =>
      rw [heq] at after
      obtain ⟨hl, ht⟩ := List.forall_mem_cons.mp after
      split
      · exact .planeCons (hf k l hl) (ih _ ht)
      · exact .planeCons unlisted (ih _ after)

/-! ### What strokes keep -/

section
variable {ok : (Nat → Nat → Nat) → Prop} {p q : Plane}

theorem Painted.wf (h : Painted ok p q) (hp : PlaneWf p) : PlaneWf q := by
  induction h with
  | refl => exact hp
  | tail _ hs ih =>
    obtain ⟨f, n, k, -, rfl⟩ := hs
    exact planeRow_wf f n k _ ih

theorem Painted.inRange (h : Painted ok p q) (hok : ∀ f, ok f → KeepsRange f) (hp : InRange p) : InRange q := by
  induction h with
  | refl => exact hp
  | tail _ hs ih =>
    obtain ⟨f, n, k, hf, rfl⟩ := hs
    exact ih.planeRow (hok f hf) n k

/-- Strokes that darken leave no pixel lighter (R112). -/
theorem Painted.darker (h : Painted ok p q) (hok : ∀ f, ok f → Darkens f) (hp : PlaneWf p) (x y : Nat) :
    pixelAt q x y ≤ pixelAt p x y := by
  induction h with
  | refl => exact Nat.le_refl _
  | @tail b c before hs ih =>
    obtain ⟨f, n, k, hf, rfl⟩ := hs
    refine Nat.le_trans ?_ ih
    rw [pixelAt, planeGet_planeRow f n k b (Painted.wf before hp)]
    split
    · exact hok f hf _ _
    · exact Nat.le_refl _

/-- A rectangle's operation is a stroke for each of its rows. -/
theorem planeRect_painted (r : PRect) (f : Nat → Nat → Nat → Nat) (p : Plane)
    (hf : ∀ y, ok (fun k old => f (k - y * 4096) y old)) : Painted ok p (planeRect r f p) :=
  List.foldlRecOn (motive := Painted ok p) _ _ .refl fun _ hq y _ => hq.tail ⟨_, _, _, hf y, rfl⟩

end

/-- Copying a rectangle of pixels keeps levels in range (R101, R115, R141). -/
theorem InRange.planeCopy {src dst : Plane} (hs : InRange src) (hd : InRange dst) {f : Nat → Nat} (hf : ∀ l ≤ 15, f l ≤ 15)
    (r : PRect) : InRange (planeCopy r f src dst) :=
  List.foldlRecOn (motive := InRange) _ _ hd fun _ hq _ _ =>
    hq.planeRow (fun _ _ _ => hf _ ((hs.subset (List.filter_subset_self src)).planeGet _)) _ _

end Sys2Proof.Machine
end

section
/-! SUPPORT. The Raster Unit's operations as strokes on W: paper fills set a paper level, all else darkens (R104, R106 to R110,
R112). -/

namespace Sys2Proof.Machine

/-- What the Raster Unit's strokes are: they darken, or set every key to one of some paper levels (R106, R112). -/
def Paint (paper : Nat → Prop) (f : Nat → Nat → Nat) : Prop := Darkens f ∨ ∃ c, paper c ∧ ∀ k l, f k l = c

theorem Paint.keepsRange {f : Nat → Nat → Nat} (h : Paint (· ≤ 15) f) : KeepsRange f := by
  intro k l hl
  rcases h with h | ⟨c, hc, h⟩
  · exact (h k l).trans hl
  · exact (h k l).trans_le hc

/-- Without a paper fill every stroke darkens (R112). -/
theorem Paint.darkens {f : Nat → Nat → Nat} (h : Paint (fun _ => False) f) : Darkens f := by
  rcases h with h | ⟨_, hc, -⟩
  · exact h
  · exact hc.elim

/-- Drawing that is strokes on W, its paper fills of some levels. -/
structure Draws (paper : Nat → Prop) (s t : State) : Prop where
  drawn : Drawn s t
  strokes : Painted (Paint paper) s.planes.w t.planes.w

section
variable {paper : Nat → Prop}

theorem Draws.refl (s : State) : Draws paper s s := ⟨.refl s, .refl⟩

theorem Draws.trans {a b c : State} (h : Draws paper a b) (k : Draws paper b c) : Draws paper a c :=
  ⟨h.drawn.trans k.drawn, h.strokes.trans k.strokes⟩

theorem foldl_draws {α : Type} {f : State → α → State} (hf : ∀ s a, Draws paper s (f s a)) (l : List α) (s : State) :
    Draws paper s (l.foldl f s) :=
  List.foldlRecOn (motive := Draws paper s) l f (.refl s) fun _ h a _ => h.trans (hf _ a)

/-- An operation none of whose pixels becomes lighter. -/
theorem drawRect_draws {level : Nat → Nat → Nat → Nat} (h : ∀ x y l, level x y l ≤ l) (r : PRect)
    (addressed : Nat → Nat → Bool) (s : State) : Draws paper s (drawRect r addressed level s) := by
  refine ⟨drawRect_drawn _ _ _ s, ?_⟩
  rw [drawRect_w]
  refine planeRect_painted _ _ _ fun y => .inl fun k l => ?_
  dsimp only
  split
  · exact h _ _ l
  · exact Nat.le_refl l

theorem paperFill_draws {level : Nat} (h : paper level) (r : PRect) (s : State) : Draws paper s (paperFill r level s) := by
  refine ⟨drawRect_drawn _ _ _ s, ?_⟩
  rw [paperFill, drawRect_w]
  exact planeRect_painted _ _ _ fun _ => .inr ⟨level, h, fun _ _ => rfl⟩

theorem glyphLevel_le (p k c : Nat) : glyphLevel p k c ≤ p := by
  unfold glyphLevel
  split
  · exact Nat.sub_le _ _
  · exact Nat.le_refl p

theorem drawEntries_draws (clip : PRect) (l : List DrawEntry) (s : State) : Draws paper s (drawEntries clip l s) :=
  foldl_draws (fun s _ => drawRect_draws (fun _ _ _ => glyphLevel_le _ _ _) _ _ s) l s

theorem drawPiece_draws (frame : FrameRec) (line : LineRec) (laid : List Laid) (s : State) (n : Note) :
    Draws paper s (drawPiece frame line laid s n) := by
  unfold drawPiece
  simp only
  split
  · exact drawRect_draws (fun _ _ l => Nat.sub_le l _) _ _ s
  · exact drawRect_draws (fun _ _ l => Nat.min_le_left l _) _ _ s
  · exact drawRect_draws (fun _ _ l => Nat.min_le_left l _) _ _ s

theorem drawLineOp_draws (frame : FrameRec) (line : LineRec) (x : LineWork × State) (op : LineOp) :
    Draws paper x.2 (drawLineOp frame line x op).2 := by
  cases op with
  | piece n => exact drawPiece_draws frame line _ _ n
  | item n => exact drawEntries_draws _ _ _

theorem finishOverlayLine_draws (frame : FrameRec) (line : LineRec) (w : LineWork) (s : State) :
    Draws paper s (finishOverlayLine frame line w s).state :=
  List.foldlRecOn (motive := fun x : LineWork × State => Draws paper s x.2) w.ops _ (.refl s)
    fun x h op _ => h.trans (drawLineOp_draws frame line x op)

theorem drawNextOp_draws (frame : FrameRec) (line : LineRec) (w : LineWork) (s : State) :
    Draws paper s (drawNextOp frame line w s).2 := by
  unfold drawNextOp
  split
  · exact .refl s
  · exact drawLineOp_draws frame line ({ w with ops := _ }, s) _

/-- A retint line fills its band with paper when nothing of it is drawn yet (R98). -/
theorem redrawLine_draws {run : RetintRun} (h : run.stage = .paper → paper run.paper) (line : LineRec) (s : State) :
    Draws paper s (redrawLine run line s).state := by
  unfold redrawLine
  split
  · next hp => exact (paperFill_draws (h hp) _ s).trans ((drawEntries_draws _ _ _).trans (finishOverlayLine_draws _ _ _ _))
  · exact (drawEntries_draws _ _ s).trans (finishOverlayLine_draws _ _ _ _)
  · exact finishOverlayLine_draws _ _ _ s

end

end Sys2Proof.Machine
end

section
/-! SUPPORT. The paper levels of the jobs at work: what each change of the composition does to them (R49, R97, R106). -/

namespace Sys2Proof.Machine

/-- The paper levels of the jobs at work: the started compose job's and those of the running retint jobs (R106). -/
def papers (c : Composition) : List Nat :=
  (c.started.map (·.paper)).toList ++ c.retints.filterMap (fun e => e.run.map (·.paper))

theorem mem_papers {c : Composition} {p : Nat} :
    p ∈ papers c ↔ (∃ j, c.started = some j ∧ j.paper = p) ∨ ∃ e ∈ c.retints, ∃ r, e.run = some r ∧ r.paper = p := by
  simp [papers]

/-- The started job moves on with its paper level. -/
theorem papers_started {c : Composition} {j j' : Job} (h : c.started = some j) (hp : j'.paper = j.paper) :
    papers { c with started := some j' } = papers c := by
  simp only [papers, h, Option.map_some, hp]

/-- The retint queue alone changes, and each running job of it has its paper level from the queue before. -/
theorem papers_retints {c : Composition} {l : List RetintEntry}
    (h : ∀ e ∈ l, ∀ r, e.run = some r → ∃ e0 ∈ c.retints, ∃ r0, e0.run = some r0 ∧ r0.paper = r.paper) :
    papers { c with retints := l } ⊆ papers c := by
  intro p hp
  rcases mem_papers.mp hp with hj | ⟨e, he, r, hr, rfl⟩
  · exact mem_papers.mpr (.inl hj)
  · exact mem_papers.mpr (.inr (h e he r hr))

theorem papers_dropStarted (j : Job) (c : Composition) : papers (dropStarted j c) ⊆ papers c :=
  List.subset_append_right _ _

/-- A release tells a running retint job to stop, and that job keeps its paper level (R56). -/
theorem papers_releaseFrame (slot : Nat) (c : Composition) : papers (releaseFrame slot c) ⊆ papers c := by
  refine papers_retints fun e he r hr => ?_
  obtain ⟨e0, h0, rfl⟩ := List.mem_map.mp he
  refine ⟨e0, List.mem_of_mem_filter h0, ?_⟩
  split at hr
  · obtain ⟨r0, hr0, rfl⟩ := Option.map_eq_some_iff.mp hr
    exact ⟨r0, hr0, rfl⟩
  · exact ⟨r, hr, rfl⟩

theorem papers_releaseAll (l : List Nat) (c : Composition) : papers (releaseAll l c) ⊆ papers c :=
  List.foldlRecOn (motive := fun d : Composition => papers d ⊆ papers c) l _ (List.Subset.refl _)
    fun d h i _ => List.Subset.trans (papers_releaseFrame i d) h

/-- A retint job joins the queue WAITING, and has no paper level yet (R45, R97). -/
theorem papers_enqueueRetint (slot gen : Nat) (c : Composition) : papers (enqueueRetint slot gen c) = papers c := by
  simp [papers, enqueueRetint]

/-- The running retint job moves on with its paper level (R98). -/
theorem papers_withRun {c : Composition} {e : RetintEntry} (he : e ∈ c.retints) {run run' : RetintRun}
    (hr : e.run = some run) (hp : run'.paper = run.paper) : papers (withRun run' c) ⊆ papers c := by
  refine papers_retints fun x hx r hxr => ?_
  obtain ⟨x0, h0, rfl⟩ := List.mem_map.mp hx
  split at hxr
  · cases hxr
    exact ⟨e, he, run, hr, hp.symm⟩
  · exact ⟨x0, h0, r, hxr, rfl⟩

/-- The oldest WAITING retint job runs, with a paper level of its own (R97). -/
theorem papers_runEntry (run : RetintRun) (c : Composition) :
    papers { c with retints := runEntry run c.retints } ⊆ run.paper :: papers c := by
  intro p hp
  rcases mem_papers.mp hp with hj | ⟨e, he, r, hr, rfl⟩
  · exact List.mem_cons_of_mem _ (mem_papers.mpr (.inl hj))
  · rcases mem_runEntry he with he | ⟨_, -, rfl⟩
    · exact List.mem_cons_of_mem _ (mem_papers.mpr (.inr ⟨e, he, r, hr, rfl⟩))
    · cases hr
      exact List.mem_cons_self ..

/-- Reaching the frame records changes ranges and queues waiting jobs, which have no paper level (R93). -/
theorem papers_reachFrames (flow : Nat) (old new : Option (Pos × Pos)) (c : Composition) :
    papers (reachFrames flow old new c).1 = papers c := by
  refine reachFrames_keeps (P := fun d => papers d = papers c) flow old new (fun slot d _ h => ?_) rfl
  rcases reachFrame_cases flow old new slot d with he | ⟨_, _, he | ⟨-, -, -, he⟩⟩ <;> rw [he]
  · exact h
  · exact h
  · exact (papers_enqueueRetint _ _ _).trans h

theorem papers_evict (c : Composition) : papers (evict c).1 ⊆ papers c := by
  unfold evict
  split
  · exact papers_releaseFrame _ c
  · exact List.Subset.refl _

end Sys2Proof.Machine
end

section
/-! SUPPORT. The events of the raster path: strokes on W, work-dirty tiles, the composition and notices, and nothing else (R104,
R111). -/

namespace Sys2Proof.Machine

/-- What the raster path's work may do: strokes on W, work-dirty from clear to set, changes of the composition that bring no paper
level of their own, and notices. -/
structure RasterWork (paper : Nat → Prop) (s t : State) : Prop where
  rest : t = { s with
    planes := { s.planes with w := t.planes.w }, sched := { s.sched with tiles := t.sched.tiles }
    comp := t.comp, notices := t.notices }
  strokes : Painted (Paint paper) s.planes.w t.planes.w
  dirtied : OnlyDirtied s.sched.tiles t.sched.tiles
  papers : papers t.comp ⊆ papers s.comp

section
variable {paper : Nat → Prop} {s : State}

theorem RasterWork.refl (s : State) : RasterWork paper s s := ⟨rfl, .refl, .refl _, List.Subset.refl _⟩

theorem RasterWork.trans {a b c : State} (h : RasterWork paper a b) (k : RasterWork paper b c) : RasterWork paper a c := by
  refine ⟨?_, h.strokes.trans k.strokes, h.dirtied.trans k.dirtied, List.Subset.trans k.papers h.papers⟩
  have hb := h.rest
  have hc := k.rest
  rw [hb] at hc
  exact hc

theorem Draws.rasterWork {t : State} (h : Draws paper s t) : RasterWork paper s t := by
  refine ⟨?_, h.strokes, h.drawn.2.2, by rw [h.drawn.comp]; exact List.Subset.refl _⟩
  have ht := h.drawn.1
  rw [ht]

theorem rasterWork_comp {c : Composition} (h : Machine.papers c ⊆ Machine.papers s.comp) :
    RasterWork paper s { s with comp := c } :=
  ⟨rfl, .refl, .refl _, h⟩

theorem rasterWork_post (b : NoticeBody) (s : State) : RasterWork paper s (post b s) :=
  ⟨rfl, .refl, .refl _, List.Subset.refl _⟩

theorem withJob_rasterWork {i j : Job} (hi : s.comp.started = some i) (hp : j.paper = i.paper) :
    RasterWork paper s (withJob j s) :=
  rasterWork_comp (by rw [papers_started hi hp]; exact List.Subset.refl _)

/-- Drawing leaves the started job. -/
theorem Draws.started {t : State} (h : Draws paper s t) {j : Job} (hs : s.comp.started = some j) : t.comp.started = some j := by
  rw [h.drawn.comp]
  exact hs

/-! ### Compose jobs (R48, R51 to R55, R95) -/

/-- The started job leaves and its record is released (R54, R55). -/
theorem dropped_rasterWork (j : Job) (b : NoticeBody) (s : State) :
    RasterWork paper s (post b { s with comp := dropStarted j (releaseFrame j.slot s.comp) }) :=
  (rasterWork_comp (List.Subset.trans (papers_dropStarted _ _) (papers_releaseFrame _ _))).trans (rasterWork_post _ _)

theorem endAborted_rasterWork (j : Job) (found : JobState) (s : State) : RasterWork paper s (endAborted j found s) :=
  dropped_rasterWork j _ s

theorem endFailed_rasterWork (j : Job) (reason : FailReason) (p : Pos) (pass : Pass) (s : State) :
    RasterWork paper s (endFailed j reason p pass s) :=
  dropped_rasterWork j _ s

theorem atBoundary_rasterWork {go : State → State} (h : RasterWork paper s (go s)) : RasterWork paper s (atBoundary go s) := by
  unfold atBoundary
  split
  · exact .refl s
  · next j hj =>
    split
    · exact endAborted_rasterWork _ _ s
    · split
      · exact rasterWork_comp (by
          rw [← papers_started (j' := { j with running := false }) hj rfl]
          exact List.Subset.refl _)
      · exact h

theorem closeJob_rasterWork (s : State) : RasterWork paper s (closeJob s) := by
  unfold closeJob
  split
  · exact .refl s
  · refine (rasterWork_comp ?_).trans (rasterWork_post _ _)
    refine List.Subset.trans (papers_dropStarted _ _) ?_
    split
    · rw [papers_enqueueRetint]
      exact List.Subset.refl _
    · exact List.Subset.refl _

theorem beginOverlay_rasterWork (s : State) : RasterWork paper s (beginOverlay s) := by
  unfold beginOverlay
  split
  · exact .refl s
  · next j _ =>
    simp only
    have snap : RasterWork paper s
        { s with
          comp := withFrame j.slot
            { frameAt s.comp j.slot with snapshot := some (snapshotOf s (frameAt s.comp j.slot).flow) } s.comp } :=
      rasterWork_comp (List.Subset.refl _)
    split
    · exact snap.trans (atBoundary_rasterWork (closeJob_rasterWork _))
    · exact snap

theorem replayEnd_rasterWork (s : State) : RasterWork paper s (replayEnd s) := by
  unfold replayEnd
  split
  · exact .refl s
  · next j hj =>
    have hs := runningJob_started hj
    split
    · simp only
      split
      · exact endFailed_rasterWork _ _ _ _ s
      · next st _ =>
        have kept : RasterWork paper s
            { s with comp := withFrame j.slot { frameAt s.comp j.slot with stack := st } s.comp } :=
          rasterWork_comp (List.Subset.refl _)
        split
        · exact (kept.trans (withJob_rasterWork hs (by rfl))).trans (atBoundary_rasterWork (beginOverlay_rasterWork _))
        · exact (kept.trans (withJob_rasterWork hs (by rfl))).trans (atBoundary_rasterWork (.refl _))
    · exact .refl s

theorem finishLine_rasterWork {i j : Job} (hi : s.comp.started = some i) (hp : j.paper = i.paper) (w : WorkingLine) :
    RasterWork paper s (finishLine j w s) := by
  unfold finishLine
  simp only
  have recorded : RasterWork paper s
      { s with
        comp := withFrame j.slot
          { frameAt s.comp j.slot with lines := (frameAt s.comp j.slot).lines ++ [w.record] } s.comp } :=
    rasterWork_comp (List.Subset.refl _)
  split
  · exact (recorded.trans (withJob_rasterWork hi (by exact hp))).trans (atBoundary_rasterWork (beginOverlay_rasterWork _))
  · exact (recorded.trans (withJob_rasterWork hi (by exact hp))).trans (atBoundary_rasterWork (.refl _))

theorem lineSet_rasterWork (s : State) : RasterWork paper s (lineSet s) := by
  unfold lineSet
  split
  · exact .refl s
  · next j hj =>
    have hs := runningJob_started hj
    split
    · simp only
      split
      · exact (withJob_rasterWork hs (by rfl)).trans (beginOverlay_rasterWork _)
      · split
        · exact endFailed_rasterWork _ _ _ _ s
        · split
          · exact finishLine_rasterWork hs (by rfl) _
          · exact withJob_rasterWork hs (by rfl)
    · exact .refl s

theorem jobSpanDrawn_rasterWork {j : Job} (hs : s.comp.started = some j) : RasterWork paper s (jobSpanDrawn j s) := by
  unfold jobSpanDrawn
  split
  · next w k _ =>
    split
    · exact finishLine_rasterWork hs rfl w
    · have draws : Draws paper s (drawEntries j.spec.rect (spanEntries j.spanLength k w.entries) s) := drawEntries_draws _ _ s
      have drawn := draws.rasterWork.trans
        (withJob_rasterWork (j := { j with phase := .drawing w (k + 1) }) (draws.started hs) (by rfl))
      simp only [afterSpan]
      split
      · exact drawn.trans (atBoundary_rasterWork (finishLine_rasterWork (withJob_started _ _) rfl w))
      · exact drawn.trans (atBoundary_rasterWork (.refl _))
  · exact .refl s

theorem ensureSnapshot_rasterWork (j : Job) (s : State) : RasterWork paper s (ensureSnapshot j s) := by
  unfold ensureSnapshot
  simp only
  split
  · exact .refl s
  · exact rasterWork_comp (List.Subset.refl _)

theorem overlayJobLine_rasterWork {j : Job} (hs : s.comp.started = some j) (line : LineRec) (i : Nat) :
    RasterWork paper s (overlayJobLine j line i s) :=
  have draws : Draws paper s _ := finishOverlayLine_draws (frameAt s.comp j.slot) line (jobLineWork j (frameAt s.comp j.slot) line s) s
  draws.rasterWork.trans (withJob_rasterWork (draws.started hs) (by rfl))

theorem overlayLineDone_rasterWork (s : State) : RasterWork paper s (overlayLineDone s) := by
  unfold overlayLineDone
  split
  · exact .refl s
  · next j hj =>
    have hs := (claimsOf_ensureSnapshot j s).2.trans (runningJob_started hj)
    have snap : RasterWork paper s (ensureSnapshot j s) := ensureSnapshot_rasterWork j s
    split
    · simp only
      split
      · exact snap.trans (atBoundary_rasterWork (closeJob_rasterWork _))
      · refine (snap.trans (overlayJobLine_rasterWork hs _ _)).trans (atBoundary_rasterWork ?_)
        split
        · exact atBoundary_rasterWork (closeJob_rasterWork _)
        · exact .refl _
    · exact .refl s

theorem jobOverlayOp_rasterWork {j : Job} (hs : s.comp.started = some j) : RasterWork paper s (jobOverlayOp j s) := by
  have snap : RasterWork paper s (ensureSnapshot j s) := ensureSnapshot_rasterWork j s
  have hs := (claimsOf_ensureSnapshot j s).2.trans hs
  unfold jobOverlayOp
  split
  · simp only
    split
    · exact snap
    · next line _ =>
      have draws : Draws paper _ _ := drawNextOp_draws (frameAt (ensureSnapshot j s).comp j.slot) line
        (jobLineWork j (frameAt (ensureSnapshot j s).comp j.slot) line (ensureSnapshot j s)) (ensureSnapshot j s)
      exact (snap.trans draws.rasterWork).trans (withJob_rasterWork (draws.started hs) (by rfl))
  · exact .refl s

/-! ### Retint jobs (R98, R100) -/

/-- A run is that of a retint job in the queue. -/
def RunsIn (c : Composition) (run : RetintRun) : Prop := ∃ e ∈ c.retints, e.run = some run

/-- The running retint job draws and moves on. -/
theorem withRun_rasterWork {run run' : RetintRun} (hr : RunsIn s.comp run) (hp : run'.paper = run.paper) {d : State}
    (h : Draws paper s d) : RasterWork paper s { d with comp := withRun run' d.comp } := by
  obtain ⟨e, he, hrun⟩ := hr
  exact h.rasterWork.trans (rasterWork_comp (papers_withRun (h.drawn.comp ▸ he) hrun hp))

theorem withStage_rasterWork {run : RetintRun} (hr : RunsIn s.comp run) (stage : RetintStage) {d : State}
    (h : Draws paper s d) : RasterWork paper s (withStage run stage d) :=
  withRun_rasterWork (run' := { run with stage := stage }) hr rfl h

theorem retintOp_rasterWork {op : RetintRun → LineRec → State → State}
    (h : ∀ run line, RunsIn s.comp run → RasterWork paper s (op run line s)) : RasterWork paper s (retintOp op s) := by
  unfold retintOp
  split
  · exact .refl s
  · next e run hr =>
    obtain ⟨-, he, hrun⟩ := runningRetint_some hr
    split
    · exact h run _ ⟨e, he, hrun⟩
    · exact .refl s

/-- The paper levels of band fills to come: those of the lines that no operation has been drawn of yet (R98). -/
def PaperDue (paper : Nat → Prop) (c : Composition) : Prop := ∀ run, RunsIn c run → run.stage = .paper → paper run.paper

theorem endRetint_rasterWork (e : RetintEntry) (run : RetintRun) (s : State) : RasterWork paper s (endRetint e run s) := by
  unfold endRetint
  refine (rasterWork_comp ?_).trans (rasterWork_post _ _)
  have left : Machine.papers { s.comp with retints := s.comp.retints.filter (fun x => x.run.isNone) }
      ⊆ Machine.papers s.comp :=
    papers_retints fun e he r hr => ⟨e, List.mem_of_mem_filter he, r, hr, rfl⟩
  split
  · exact left
  · rw [papers_enqueueRetint]
    exact left

/-- RETINT_LINE_REDRAWN draws what is left of the current line, with its band fill where that is to come. -/
theorem retintLineRedrawn_draws {e : RetintEntry} {run : RetintRun} (h : runningRetint s = some (e, run))
    (due : run.stage = .paper → paper run.paper) :
    ∃ o : Overlaid, Draws paper s o.state
      ∧ retintLineRedrawn s
        = if run.released || decide (run.current ≥ run.hi) then
            endRetint { e with run := some (movedOn run o) } (movedOn run o) o.state
          else { o.state with comp := withRun (movedOn run o) o.state.comp } := by
  unfold retintLineRedrawn
  simp only [h]
  cases run.frame.lines[run.current]? with
  | some line => exact ⟨_, redrawLine_draws due line s, rfl⟩
  | none => exact ⟨⟨s, 0, 0⟩, .refl s, rfl⟩

theorem retintLineRedrawn_rasterWork (due : PaperDue paper s.comp) : RasterWork paper s (retintLineRedrawn s) := by
  cases hr : runningRetint s with
  | none =>
    rw [retintLineRedrawn_none hr]
    exact .refl s
  | some x =>
    obtain ⟨-, he, hrun⟩ := runningRetint_some (e := x.1) (run := x.2) hr
    have runs : RunsIn s.comp x.2 := ⟨x.1, he, hrun⟩
    obtain ⟨o, draws, heq⟩ := retintLineRedrawn_draws (e := x.1) (run := x.2) hr (due x.2 runs)
    rw [heq]
    split
    · exact draws.rasterWork.trans (endRetint_rasterWork _ _ _)
    · exact withRun_rasterWork (run' := movedOn x.2 o) runs rfl draws

/-! ### The drawing commands and the overlay's operations (R104) -/

theorem pagePaperFill_rasterWork (job : ∀ j, s.comp.started = some j → paper j.paper) (due : PaperDue paper s.comp) :
    RasterWork paper s (pagePaperFill s) := by
  unfold pagePaperFill
  split
  · refine retintOp_rasterWork fun run line runs => ?_
    unfold retintBandFilled
    split
    · next hp => exact withStage_rasterWork runs _ (paperFill_draws (due run runs hp) _ s)
    · exact .refl s
  · next j hj =>
    have hs := runningJob_started hj
    split
    · exact (paperFill_draws (job j hs) _ s).rasterWork.trans (withJob_rasterWork hs (by rfl))
    · exact .refl s

theorem glyphSpanDrawn_rasterWork (s : State) : RasterWork paper s (glyphSpanDrawn s) := by
  unfold glyphSpanDrawn
  split
  · refine retintOp_rasterWork fun run line runs => ?_
    unfold retintSpanDrawn
    split
    · exact withStage_rasterWork runs _ (drawEntries_draws _ _ s)
    · exact .refl s
  · next j hj => exact jobSpanDrawn_rasterWork (runningJob_started hj)

theorem overlayOp_rasterWork (s : State) : RasterWork paper s (overlayOp s) := by
  unfold overlayOp
  split
  · refine retintOp_rasterWork fun run line runs => ?_
    unfold retintOverlayOp
    split
    · exact withStage_rasterWork runs _ (drawNextOp_draws _ _ _ s)
    · exact .refl s
  · next j hj => exact jobOverlayOp_rasterWork (runningJob_started hj)

end

end Sys2Proof.Machine
end

section
/-! SUPPORT. What a step can do to the planes and to the paper levels of jobs: strokes on W, pixels copied to T and G, or a fill
that takes the part out of or into ACTIVE; and a job that starts takes its paper level from the settings (R49, R97, R103,
R106). -/

namespace Sys2Proof.Machine

/-! ### Copies -/

/-- Pixels copied from W to T, tile by tile, and from T to G (R113, R115, R141). -/
inductive Copied (p : Planes) : Planes → Prop
  | none : Copied p p
  | tile {q : Planes} (h : Copied p q) (cols i : Nat) : Copied p (copyTilePixels cols i q)
  | glass {q : Planes} (h : Copied p q) (r : PRect) (m : Mode) : Copied p { q with g := planeCopy r (glassLevel m) q.t q.g }

/-- A tile copied from W to T changes T alone, by the copy of its pixels (R115). -/
theorem copyTilePixels_t (cols i : Nat) (p : Planes) :
    (copyTilePixels cols i p).t = planeCopy (tilePixels (i % cols) (i / cols)) id p.w p.t := by
  unfold copyTilePixels
  rfl

theorem Copied.w {p q : Planes} (h : Copied p q) : q.w = p.w := by
  induction h with
  | none => rfl
  | tile _ cols i ih => exact (copyTilePixels_w cols i _).trans ih
  | glass _ _ _ ih => exact ih

theorem Copied.wf {p q : Planes} (h : Copied p q) (hp : PlaneWf p.w ∧ PlaneWf p.t ∧ PlaneWf p.g) :
    PlaneWf q.w ∧ PlaneWf q.t ∧ PlaneWf q.g := by
  induction h with
  | none => exact hp
  | tile _ cols i ih =>
    obtain ⟨hw, ht, hg⟩ := ih
    rw [copyTilePixels_w, copyTilePixels_g]
    exact ⟨hw, copyTilePixels_wf cols i _ ht, hg⟩
  | glass _ r m ih =>
    obtain ⟨hw, ht, hg⟩ := ih
    exact ⟨hw, ht, planeCopy_wf _ _ _ _ hg⟩

theorem glassLevel_inRange (m : Mode) : ∀ l ≤ 15, glassLevel m l ≤ 15 := by
  intro l hl
  cases m with
  | swift =>
    rw [glassLevel]
    split <;> decide
  | text | clean => exact hl

/-- Every level of the three planes lies in 0..15 (R101). -/
def PlanesInRange (p : Planes) : Prop := InRange p.w ∧ InRange p.t ∧ InRange p.g

theorem Copied.inRange {p q : Planes} (h : Copied p q) (hp : PlanesInRange p) : PlanesInRange q := by
  induction h with
  | none => exact hp
  | tile _ cols i ih =>
    obtain ⟨hw, ht, hg⟩ := ih
    rw [PlanesInRange, copyTilePixels_w, copyTilePixels_t, copyTilePixels_g]
    exact ⟨hw, .planeCopy hw ht (fun _ hl => hl) _, hg⟩
  | glass _ r m ih =>
    obtain ⟨hw, ht, hg⟩ := ih
    exact ⟨hw, ht, .planeCopy ht hg (glassLevel_inRange m) _⟩

/-! ### What a step may do -/

/-- The planes after a step: strokes on W, copies to T and G, or a fill of all three, which goes with a change of the power state
from or to ACTIVE (R103, R169, R171). -/
inductive PlanesMoved (paper : Nat → Prop) (s t : State) : Prop
  | stroked (strokes : Painted (Paint paper) s.planes.w t.planes.w) (target : t.planes.t = s.planes.t)
      (glass : t.planes.g = s.planes.g)
  | copied (copies : Copied s.planes t.planes)
  | filled (blank : t.planes = ⟨[], [], []⟩) (power : s.settings.power ≠ .active ∨ t.settings.power ≠ .active)

/-- The paper level that a job takes when it starts now (R49, R97). -/
def startPaper (s : State) : Nat := (setting (applyBoundary .jobBoundary s.settings) 5).applied

/-- What a step may do to the planes and to the paper levels of jobs. -/
structure StepPaints (paper : Nat → Prop) (s t : State) : Prop where
  planes : PlanesMoved paper s t
  papers : papers t.comp ⊆ startPaper s :: papers s.comp

/-- What most work leaves alone: the planes, and the paper levels of jobs but for those that end. -/
structure Unpainted (s t : State) : Prop where
  planes : t.planes = s.planes
  papers : papers t.comp ⊆ papers s.comp

theorem Unpainted.refl (s : State) : Unpainted s s := ⟨rfl, List.Subset.refl _⟩

theorem Unpainted.trans {a b c : State} (h : Unpainted a b) (k : Unpainted b c) : Unpainted a c :=
  ⟨k.planes.trans h.planes, List.Subset.trans k.papers h.papers⟩

theorem unpainted_of_papers {s t : State} (hp : t.planes = s.planes) (h : papers t.comp = papers s.comp) : Unpainted s t :=
  ⟨hp, by rw [h]; exact List.Subset.refl _⟩

section
variable {paper : Nat → Prop} {s t : State}

theorem papers_cons_of_subset (h : papers t.comp ⊆ papers s.comp) : papers t.comp ⊆ startPaper s :: papers s.comp :=
  List.Subset.trans h (List.subset_cons_self _ _)

theorem PlanesMoved.of_eq (h : t.planes = s.planes) : PlanesMoved paper s t :=
  .copied (by rw [h]; exact .none)

theorem Unpainted.stepPaints (h : Unpainted s t) : StepPaints paper s t := ⟨.of_eq h.planes, papers_cons_of_subset h.papers⟩

theorem RasterWork.stepPaints (h : RasterWork paper s t) : StepPaints paper s t := by
  have hp : t.planes = { s.planes with w := t.planes.w } := congrArg State.planes h.rest
  exact ⟨.stroked h.strokes (congrArg (·.t) hp) (congrArg (·.g) hp), papers_cons_of_subset h.papers⟩

/-- Work before a step and work after it that leave the planes, the jobs and the settings alone. -/
theorem StepPaints.between {u v : State} (h : StepPaints paper u v)
    (hu : u.planes = s.planes ∧ u.comp = s.comp ∧ u.settings = s.settings)
    (hv : t.planes = v.planes ∧ t.comp = v.comp ∧ t.settings = v.settings) : StepPaints paper s t := by
  obtain ⟨up, uc, us⟩ := hu
  obtain ⟨vp, vc, vs⟩ := hv
  refine ⟨?_, ?_⟩
  · rcases h.planes with ⟨hw, ht, hg⟩ | hc | ⟨hb, hp⟩
    · rw [up, ← vp] at hw ht hg
      exact .stroked hw ht hg
    · rw [up, ← vp] at hc
      exact .copied hc
    · rw [← vp] at hb
      rw [us, ← vs] at hp
      exact .filled hb hp
  · have hq := h.papers
    rw [startPaper, us, uc, ← vc] at hq
    exact hq

end

/-! ### Requests -/

theorem takeFlowClear_unpainted (slot : Nat) (s : State) : Unpainted s (takeFlowClear slot s).1 := by
  unfold takeFlowClear
  simp only
  iterate 2 (split; · exact .refl s)
  exact ⟨rfl, papers_releaseAll _ _⟩

theorem takeFrameRelease_unpainted (slot gen : Nat) (s : State) : Unpainted s (takeFrameRelease slot gen s).1 := by
  unfold takeFrameRelease
  split
  · exact .refl s
  · exact ⟨rfl, papers_releaseFrame _ _⟩

theorem takeCompose_unpainted (f : ComposeFields) (s : State) : Unpainted s (takeCompose f s).1 := by
  unfold takeCompose
  iterate 5 (split; · exact .refl s)
  exact unpainted_of_papers (by rfl) (by rfl)

theorem takeComposeAbort_unpainted (tag : Nat) (s : State) : Unpainted s (takeComposeAbort tag s).1 := by
  unfold takeComposeAbort
  split
  · exact unpainted_of_papers (by rfl) (by rfl)
  · split
    · exact .refl s
    · next j hj =>
      split
      · exact .refl s
      · split
        · exact ⟨rfl, (withJob_rasterWork (paper := fun _ => False) (j := { j with abortAsked := true }) hj rfl).papers⟩
        · exact ⟨rfl, (endAborted_rasterWork (paper := fun _ => False) j .suspended s).papers⟩

/-- A note request that reaches the records changes the notes besides (R93). -/
theorem reached_unpainted (flow : Nat) (old new : Option (Pos × Pos)) (s : State) (l : List Note) :
    Unpainted s { s with notes := l, comp := (reachFrames flow old new s.comp).1 } := by
  have reached := papers_reachFrames flow old new s.comp
  generalize (reachFrames flow old new s.comp).1 = c at reached ⊢
  exact unpainted_of_papers rfl reached

theorem takeNoteAdd_unpainted (f : NoteFields) (s : State) : Unpainted s (takeNoteAdd f s).1 := by
  unfold takeNoteAdd
  split
  · exact .refl s
  · iterate 4 (split; · exact .refl s)
    exact reached_unpainted _ _ _ s _

theorem takeNoteChange_unpainted (id : Nat) (c : NoteChanges) (s : State) : Unpainted s (takeNoteChange id c s).1 := by
  unfold takeNoteChange
  iterate 2 (split; · exact .refl s)
  split
  · exact .refl s
  · simp only
    split
    · exact .refl s
    · exact reached_unpainted _ _ _ s _

theorem takeNoteRemove_unpainted (id : Nat) (s : State) : Unpainted s (takeNoteRemove id s).1 := by
  unfold takeNoteRemove
  iterate 2 (split; · exact .refl s)
  exact reached_unpainted _ _ _ s _

theorem takeCommit_unpainted (mode cls : Nat) (rect : Option TileRect) (s : State) :
    Unpainted s (takeCommit mode cls rect s).1 := by
  unfold takeCommit
  repeat' split
  all_goals exact unpainted_of_papers (by rfl) (by rfl)

theorem takeRefresh_unpainted (mode cls : Nat) (rect : Option TileRect) (s : State) :
    Unpainted s (takeRefresh mode cls rect s).1 := by
  unfold takeRefresh
  repeat' split
  all_goals exact unpainted_of_papers (by rfl) (by rfl)

theorem takeSet_unpainted (id v : Nat) (s : State) : Unpainted s (takeSet id v s).1 := by
  unfold takeSet
  iterate 3 (split; · exact .refl s)
  exact unpainted_of_papers (by rfl) (by rfl)

theorem takeStandby_unpainted (s : State) : Unpainted s (takeStandby s).1 := by
  unfold takeStandby
  iterate 2 (split; · exact .refl s)
  exact unpainted_of_papers (by rfl) (by rfl)

theorem takeFlowAppend_unpainted (slot : Nat) (l : List RunRecord) (s : State) : Unpainted s (takeFlowAppend slot l s).1 := by
  unfold takeFlowAppend
  iterate 3 (split; · exact .refl s)
  exact unpainted_of_papers (by rfl) (by rfl)

theorem takeStyleDefine_unpainted (id : Nat) (f : StyleFields) (s : State) : Unpainted s (takeStyleDefine id f s).1 := by
  unfold takeStyleDefine
  iterate 2 (split; · exact .refl s)
  exact unpainted_of_papers (by rfl) (by rfl)

theorem StoreWork.unpainted {s t : State} (h : StoreWork s t) : Unpainted s t := by
  obtain ⟨st, rfl, -⟩ := h
  exact unpainted_of_papers (by rfl) (by rfl)

/-- An owner's work leaves the planes, unless it is an activation (Table 9-3). -/
theorem ownerState_unpainted {r : Request} (h : r ≠ .activate) (s : State) : Unpainted s (ownerState r s) := by
  cases r with
  | activate => exact absurd rfl h
  | status | get | flowInfo | styleRead | fontList | glyphGet | frameInfo | locate | noteList | queueInfo => exact .refl s
  | reset | setTemperature | readNotices | clearNotices => exact unpainted_of_papers (by rfl) (by rfl)
  | set id v => exact takeSet_unpainted id v s
  | standby => exact takeStandby_unpainted s
  | flowAppend slot l => exact takeFlowAppend_unpainted slot l s
  | flowClear slot => exact takeFlowClear_unpainted slot s
  | styleDefine id f => exact takeStyleDefine_unpainted id f s
  | fontBegin slot header => exact (takeFontBegin_work slot header s).unpainted
  | glyphPut slot i l => exact (takeGlyphPut_work slot i l s).unpainted
  | fontEnd slot => exact (takeFontEnd_work slot s).unpainted
  | fontDrop slot => exact (takeFontDrop_work slot s).unpainted
  | fontLock slot => exact (takeFontLock_work slot s).unpainted
  | fontCheck slot => exact (takeFontCheck_work slot s).unpainted
  | protectRaise b => exact (takeProtectRaise_work b s).unpainted
  | storeWipe => exact (takeStoreWipe_work s).unpainted
  | compose f => exact takeCompose_unpainted f s
  | composeAbort t => exact takeComposeAbort_unpainted t s
  | frameRelease slot gen => exact takeFrameRelease_unpainted slot gen s
  | noteAdd n => exact takeNoteAdd_unpainted n s
  | noteChange id c => exact takeNoteChange_unpainted id c s
  | noteRemove id => exact takeNoteRemove_unpainted id s
  | commit m c r => exact takeCommit_unpainted m c r s
  | refresh m c r => exact takeRefresh_unpainted m c r s

section
variable {paper : Nat → Prop}

/-- An activation fills the planes, or leaves them (R103, R169). -/
theorem takeActivate_stepPaints (s : State) : StepPaints paper s (takeActivate s).1 := by
  unfold takeActivate
  split
  · exact (Unpainted.refl s).stepPaints
  · next hp =>
    have away : s.settings.power ≠ .active := by simpa using hp
    obtain ⟨u, lanes, ⟨-, rfl⟩ | ⟨-, rfl⟩, he⟩ := activateStandby_cases s <;> simp only [he]
    · exact ⟨.filled rfl (.inl away), papers_cons_of_subset (papers_releaseAll _ s.comp)⟩
    · exact (unpainted_of_papers (by rfl) (by rfl)).stepPaints

theorem ownerState_stepPaints (r : Request) (s : State) : StepPaints paper s (ownerState r s) := by
  by_cases h : r = .activate
  · rw [h]
    exact takeActivate_stepPaints s
  · exact (ownerState_unpainted h s).stepPaints

/-- A reply leaves the planes, the jobs and the settings. -/
theorem RepliedTo.blocks {u t : State} (h : RepliedTo u t) :
    t.planes = u.planes ∧ t.comp = u.comp ∧ t.settings = u.settings := by
  rcases h with ⟨tag, kind, a, rfl⟩ | ⟨tag, kind, a, rfl⟩ <;> exact ⟨rfl, rfl, rfl⟩

/-- A request taken and replied to, over a state that has taken it from the link. -/
theorem TakenFrom.stepPaints {s v u t : State} (h : TakenFrom v u) (ht : RepliedTo u t)
    (hv : v.planes = s.planes ∧ v.comp = s.comp ∧ v.settings = s.settings) : StepPaints paper s t := by
  refine StepPaints.between (u := v) (v := u) ?_ hv ht.blocks
  cases h with
  | refused => exact (Unpainted.refl _).stepPaints
  | owner r => exact ownerState_stepPaints r v

theorem LinkWork.unpainted {s t : State} (h : LinkWork s t) : Unpainted s t := by
  rw [h]
  exact unpainted_of_papers (by rfl) (by rfl)

theorem present_stepPaints (tag : Byte) (r : Request) (s : State) : StepPaints paper s (present tag r s) := by
  rcases present_cases tag r s with he | ⟨q, he⟩ | ⟨-, u, hu, ht⟩
  · rw [he]
    exact (Unpainted.refl s).stepPaints
  · rw [he]
    exact (arrive_linkWork q s).unpainted.stepPaints
  · exact hu.stepPaints ht ⟨rfl, rfl, rfl⟩

theorem handOver_stepPaints (s : State) : StepPaints paper s (handOver s) := by
  rcases handOver_cases s with he | ⟨q, rest, -, -, u, hu, ht⟩
  · rw [he]
    exact (Unpainted.refl s).stepPaints
  · exact hu.stepPaints ht ⟨rfl, rfl, rfl⟩

/-! ### Resets and the port (R147, R156, R171) -/

/-- What a reset leaves of the planes, the jobs and the power state (R171). -/
structure Blanked (t : State) : Prop where
  planes : t.planes = ⟨[], [], []⟩
  papers : papers t.comp = []
  power : t.settings.power = .starting

theorem resetPart_blanked (c : ResetCause) (s : State) : Blanked (resetPart c s) := ⟨rfl, rfl, rfl⟩

theorem Blanked.stepPaints {t : State} (h : Blanked t) (s : State) : StepPaints paper s t :=
  ⟨.filled h.planes (.inr (by rw [h.power]; decide)), by rw [h.papers]; exact List.nil_subset _⟩

/-- At the port the link works, or a RESET takes effect (R147, R156). -/
theorem portEvents_stepPaints (l : List PortEvent) (s : State) : StepPaints paper s (portEvents l s) := by
  have result : LinkWork s (portEvents l s) ∨ Blanked (portEvents l s) := by
    refine portEvents_keeps_linkWork (P := fun u => LinkWork s u ∨ Blanked u) (fun hw h => ?_)
      (fun _ => .inr (resetPart_blanked _ _)) l (.inl (.refl s))
    refine h.imp (fun hs => hs.trans hw) fun hb => ?_
    rw [hw]
    exact ⟨hb.planes, hb.papers, hb.power⟩
  rcases result with h | h
  · exact h.unpainted.stepPaints
  · exact h.stepPaints s

theorem replySent_stepPaints (s : State) : StepPaints paper s (replySent s) := by
  unfold replySent
  split
  · exact (Unpainted.refl s).stepPaints
  · exact portEvents_stepPaints _ s

/-! ### The arbiter (R47, R49, R97) -/

theorem continueLatch_unpainted (c : CommitSpec) (next : Nat) (copied : List Nat) (deferred : Nat) (s : State) :
    Unpainted s (continueLatch c next copied deferred s) := by
  unfold continueLatch
  split <;> exact unpainted_of_papers (by rfl) (by rfl)

theorem startRetint_stepPaints (e : RetintEntry) (s : State) : StepPaints paper s (startRetint e s) :=
  ⟨.of_eq rfl, papers_runEntry _ s.comp⟩

theorem startJob_stepPaints (j : JobSpec) (rest : List JobSpec) (s : State) : StepPaints paper s (startJob j rest s) := by
  refine ⟨.of_eq rfl, List.cons_subset_cons _ ?_⟩
  have left := fun l => List.Subset.trans (papers_evict (releaseAll l s.comp)) (papers_releaseAll l s.comp)
  exact List.Subset.trans (List.subset_append_right _ _) (left _)

theorem rasterPathGrant_stepPaints (s : State) : StepPaints paper s (rasterPathGrant s) := by
  unfold rasterPathGrant
  split
  · split
    · exact startRetint_stepPaints _ s
    · split
      · have granted : Unpainted s { s with comp := { s.comp with path := .latch } } := unpainted_of_papers (by rfl) (by rfl)
        exact (granted.trans (continueLatch_unpainted _ _ _ _ _)).stepPaints
      · split
        · next j hj =>
          have resumed : Unpainted s
              { s with comp := { s.comp with started := some { j with running := true }, path := .composeJob } } :=
            unpainted_of_papers rfl (papers_started hj rfl)
          exact resumed.stepPaints
        · split
          · exact startJob_stepPaints _ _ s
          · exact (Unpainted.refl s).stepPaints
  · exact (Unpainted.refl s).stepPaints

/-! ### Copies to T and G (R115, R141, R143) -/

theorem latchTile_stepPaints (s : State) : StepPaints paper s (latchTile s) := by
  unfold latchTile
  split
  · split
    · exact (unpainted_of_papers (by rfl) (by rfl)).stepPaints
    · next i _ =>
      split
      · have deferred : ∀ c, Unpainted s (changeTile i (deferTile c) s) := fun _ => unpainted_of_papers (by rfl) (by rfl)
        exact ((deferred _).trans (continueLatch_unpainted _ _ _ _ _)).stepPaints
      · have goes := fun c n l k => continueLatch_unpainted c n l k
          { changeTile i copiedTile s with planes := copyTilePixels (tileCols s) i s.planes }
        exact ⟨.copied (by rw [(goes _ _ _ _).planes]; exact .tile .none _ _), papers_cons_of_subset (goes _ _ _ _).papers⟩
  · exact (Unpainted.refl s).stepPaints

/-- A completion copies the lane's rectangle to G and its stale tiles to T (R141, R143). -/
theorem landLane_copied (lane : Nat) (d : Drive) (s : State) : Copied s.planes (landLane lane d s).planes :=
  List.foldlRecOn (motive := Copied s.planes) _ _ (.glass .none _ _) fun _ h i _ => .tile h _ i

theorem updateCompletion_stepPaints (lane : Nat) (s : State) : StepPaints paper s (updateCompletion lane s) := by
  unfold updateCompletion
  split
  · exact (Unpainted.refl s).stepPaints
  · next d _ =>
    split
    · exact ⟨.copied (landLane_copied lane d s), papers_cons_of_subset (List.Subset.refl _)⟩
    · exact (Unpainted.refl s).stepPaints

end

/-! ### Operations of the Font Store, lanes, timers and the scan -/

theorem fontEndComplete_unpainted (s : State) : Unpainted s (fontEndComplete s) := by
  unfold fontEndComplete
  split
  · exact unpainted_of_papers (by rfl) (by rfl)
  · exact .refl s

theorem fontDropComplete_unpainted (s : State) : Unpainted s (fontDropComplete s) := by
  unfold fontDropComplete
  split
  · split
    · exact .refl s
    · exact unpainted_of_papers (by rfl) (by rfl)
  · exact .refl s

theorem fontLockComplete_unpainted (s : State) : Unpainted s (fontLockComplete s) := by
  unfold fontLockComplete
  split
  · exact unpainted_of_papers (by rfl) (by rfl)
  · exact .refl s

theorem fontCheckComplete_unpainted (s : State) : Unpainted s (fontCheckComplete s) := by
  unfold fontCheckComplete
  split
  · simp only
    split <;> exact unpainted_of_papers (by rfl) (by rfl)
  · exact .refl s

theorem protectRaiseComplete_unpainted (s : State) : Unpainted s (protectRaiseComplete s) := by
  unfold protectRaiseComplete
  split
  · exact unpainted_of_papers (by rfl) (by rfl)
  · exact .refl s

theorem storeWipeComplete_unpainted (s : State) : Unpainted s (storeWipeComplete s) := by
  unfold storeWipeComplete
  split
  · exact unpainted_of_papers (by rfl) (by rfl)
  · exact .refl s

theorem panelFrameBoundary_unpainted (s : State) : Unpainted s (panelFrameBoundary s) := by
  unfold panelFrameBoundary
  split
  · exact unpainted_of_papers (by rfl) (by rfl)
  · exact .refl s

theorem laneFrame_unpainted (lane : Nat) (s : State) : Unpainted s (laneFrame lane s) := by
  unfold laneFrame
  split
  · exact .refl s
  · split
    · exact unpainted_of_papers (by rfl) (by rfl)
    · exact .refl s

theorem visitLane_unpainted (s : State) (lane : Nat) : Unpainted s (visitLane s lane) := by
  unfold visitLane
  split
  · split
    · exact unpainted_of_papers (by rfl) (by rfl)
    · exact .refl s
  · exact .refl s

theorem dispatchScan_unpainted (s : State) : Unpainted s (dispatchScan s) := by
  unfold dispatchScan
  split
  · have begun : Unpainted s
        { s with
          settings := applyBoundary .dispatchBoundary s.settings
          lanes := { s.lanes with scanDue := false } } := unpainted_of_papers rfl rfl
    exact List.foldlRecOn (motive := Unpainted s) _ _ begun fun u hu lane _ => hu.trans (visitLane_unpainted u lane)
  · exact .refl s

theorem deghostExpiry_unpainted (s : State) : Unpainted s (deghostExpiry s) := by
  unfold deghostExpiry
  split
  · exact unpainted_of_papers (by rfl) (by rfl)
  · exact .refl s

theorem temperatureStale_unpainted (s : State) : Unpainted s (temperatureStale s) := by
  unfold temperatureStale
  split
  · exact unpainted_of_papers (by rfl) (by rfl)
  · exact .refl s

theorem startupScanEnd_unpainted (s : State) : Unpainted s (startupScanEnd s) := by
  unfold startupScanEnd
  split
  · exact unpainted_of_papers (by rfl) (by rfl)
  · exact .refl s

/-! ### Steps -/

section
variable {paper : Nat → Prop} {s : State}

/-- What an event does to the planes; PAGE_PAPER_FILL may set the paper level of the started job. -/
theorem eventState_stepPaints (i : Instr) (job : i = .pagePaperFill → ∀ j, s.comp.started = some j → paper j.paper)
    (due : PaperDue paper s.comp) : StepPaints paper s (eventState i s) := by
  cases i with
  | frameReceived l => exact portEvents_stepPaints l s
  | abandonedFrame second => exact portEvents_stepPaints [.byte second] s
  | handOver => exact handOver_stepPaints s
  | replySent => exact replySent_stepPaints s
  | fontEndComplete => exact (fontEndComplete_unpainted s).stepPaints
  | fontDropComplete => exact (fontDropComplete_unpainted s).stepPaints
  | fontLockComplete => exact (fontLockComplete_unpainted s).stepPaints
  | fontCheckComplete => exact (fontCheckComplete_unpainted s).stepPaints
  | protectRaiseComplete => exact (protectRaiseComplete_unpainted s).stepPaints
  | storeWipeComplete => exact (storeWipeComplete_unpainted s).stepPaints
  | writeEntryProgrammed => exact (writeEntryProgrammed_work s).unpainted.stepPaints
  | rasterPathGrant => exact rasterPathGrant_stepPaints s
  | replayEnd => exact (replayEnd_rasterWork s).stepPaints
  | pagePaperFill => exact (pagePaperFill_rasterWork (job rfl) due).stepPaints
  | lineSet => exact (lineSet_rasterWork s).stepPaints
  | glyphSpanDrawn => exact (glyphSpanDrawn_rasterWork s).stepPaints
  | overlayLineDone => exact (overlayLineDone_rasterWork s).stepPaints
  | retintLineRedrawn => exact (retintLineRedrawn_rasterWork due).stepPaints
  | latchTile => exact latchTile_stepPaints s
  | panelFrameBoundary => exact (panelFrameBoundary_unpainted s).stepPaints
  | laneFrame lane => exact (laneFrame_unpainted lane s).stepPaints
  | dispatchScan => exact (dispatchScan_unpainted s).stepPaints
  | updateCompletion lane => exact updateCompletion_stepPaints lane s
  | deghostExpiry => exact (deghostExpiry_unpainted s).stepPaints
  | temperatureStale => exact (temperatureStale_unpainted s).stepPaints
  | resetPin => exact (Blanked.mk rfl rfl rfl : Blanked (assertReset s)).stepPaints s
  | resetPinRelease | driveHoldLevelChange => exact (unpainted_of_papers (by rfl) (by rfl)).stepPaints
  | startupScanEnd => exact (startupScanEnd_unpainted s).stepPaints
  | _ => exact (Unpainted.refl s).stepPaints

theorem idle_stepPaints (s : State) : StepPaints paper s (idle s) :=
  (overlayOp_rasterWork (tick s)).stepPaints.between ⟨rfl, rfl, rfl⟩ ⟨rfl, rfl, rfl⟩

/-- What a step does to the planes and to the paper levels of jobs. -/
theorem step_stepPaints {t : State}
    (job : ∀ rest, s.pending = .pagePaperFill :: rest → ∀ j, s.comp.started = some j → paper j.paper)
    (due : PaperDue paper s.comp) (h : step s = .next t) : StepPaints paper s t := by
  unfold step at h
  split at h
  · cases h
    exact idle_stepPaints s
  · next c rest hq =>
    have taken : ∀ {v}, StepPaints paper { s with pending := rest } v → StepPaints paper s v :=
      fun hv => hv.between ⟨rfl, rfl, rfl⟩ ⟨rfl, rfl, rfl⟩
    rcases exec_cases c { s with pending := rest } with ⟨tag, r, -, he⟩ | ⟨-, he⟩ <;> rw [he] at h <;> cases h
    · exact taken (present_stepPaints tag r _)
    · exact taken (eventState_stepPaints c (fun hc => job rest (hc ▸ hq)) due)

end

end Sys2Proof.Machine
end

section
/-! SUPPORT. What a step keeps of the planes: their form, their levels, and outside paper fills every level of W as an upper bound
(O55, O40). -/

namespace Sys2Proof.Machine

theorem PlanesMoved.planesWf {paper : Nat → Prop} {s t : State} (h : PlanesMoved paper s t) (hs : PlanesWf s) : PlanesWf t := by
  obtain ⟨hw, ht, hg⟩ := hs
  rcases h with ⟨strokes, target, glass⟩ | copies | ⟨blank, -⟩
  · rw [PlanesWf, target, glass]
    exact ⟨strokes.wf hw, ht, hg⟩
  · exact copies.wf ⟨hw, ht, hg⟩
  · rw [PlanesWf, blank]
    decide

/-- Paper levels in range keep every level in range (R101, R106). -/
theorem PlanesMoved.inRange {s t : State} (h : PlanesMoved (· ≤ 15) s t) (hs : PlanesInRange s.planes) :
    PlanesInRange t.planes := by
  obtain ⟨hw, ht, hg⟩ := hs
  rcases h with ⟨strokes, target, glass⟩ | copies | ⟨blank, -⟩
  · rw [PlanesInRange, target, glass]
    exact ⟨strokes.inRange (fun _ => Paint.keepsRange) hw, ht, hg⟩
  · exact copies.inRange ⟨hw, ht, hg⟩
  · have empty : InRange [] := fun _ he => nomatch he
    rw [blank]
    exact ⟨empty, empty, empty⟩

/-- Without a paper fill, and without a fill of the planes, no pixel of W becomes lighter (R112). -/
theorem PlanesMoved.darker {s t : State} (h : PlanesMoved (fun _ => False) s t) (hs : PlaneWf s.planes.w)
    (ha : s.settings.power = .active) (hb : t.settings.power = .active) (x y : Nat) :
    pixelAt t.planes.w x y ≤ pixelAt s.planes.w x y := by
  rcases h with ⟨strokes, -, -⟩ | copies | ⟨-, power⟩
  · exact strokes.darker (fun _ => Paint.darkens) hs x y
  · rw [copies.w]
  · exact absurd power (by simp [ha, hb])

theorem levelsWf_iff (s : State) :
    LevelsWf s ↔ PlanesInRange s.planes ∧ ∀ p ∈ papers s.comp, p ≤ 15 := by
  have planes : (∀ p ∈ [s.planes.w, s.planes.t, s.planes.g], ∀ e ∈ p, e.2 ≤ 15)
      ↔ PlanesInRange s.planes := by simp [PlanesInRange, InRange]
  rw [LevelsWf, planes]
  refine and_congr_right fun _ => ⟨fun ⟨job, retint⟩ p hp => ?_, fun h => ⟨fun j hj => ?_, fun e he r hr => ?_⟩⟩
  · rcases mem_papers.mp hp with ⟨j, hj, rfl⟩ | ⟨e, he, r, hr, rfl⟩
    · exact job j hj
    · exact retint e he r hr
  · exact h _ (mem_papers.mpr (.inl ⟨j, hj, rfl⟩))
  · exact h _ (mem_papers.mpr (.inr ⟨e, he, r, hr, rfl⟩))

/-- A job that starts takes a paper level that a write can store, and so one of 8..15 (R97, R164). -/
theorem startPaper_le {s : State} (h : SettingsInRange s) : startPaper s ≤ 15 := by
  have clamped : ∀ v, clampSetting 5 v = v → v ≤ 15 := fun v hv => by
    have bounds : clampSetting 5 v = max 8 (min v 15) := rfl
    omega
  obtain ⟨applied, pending, -⟩ := h.2 5 (by decide)
  rw [startPaper, setting_applyBoundary]
  split
  · rw [applyPending]
    cases hp : (setting s.settings 5).pending with
    | none => exact clamped _ applied
    | some v => exact clamped v (pending v hp)
  · exact clamped _ applied

/-- Settles O55: a step strokes W, copies to T and G, or fills all three; what it paints with are paper levels of jobs at work, and
a job that starts takes its own from the settings. -/
theorem planesWfKept : Obligations.PlanesWfKept := by
  refine ⟨fun s t hs h => ?form, fun s t hr hs h => ?levels⟩
  case form =>
    have moved := step_stepPaints (paper := fun _ => True) (fun _ _ _ _ => trivial) (fun _ _ _ => trivial) h
    exact moved.planes.planesWf hs
  case levels =>
    obtain ⟨hp, hl⟩ := (levelsWf_iff s).mp hs
    have moved := step_stepPaints (paper := (· ≤ 15)) (fun _ _ j hj => hl _ (mem_papers.mpr (.inl ⟨j, hj, rfl⟩)))
      (fun run ⟨e, he, hrun⟩ _ => hl _ (mem_papers.mpr (.inr ⟨e, he, run, hrun, rfl⟩))) h
    refine (levelsWf_iff t).mpr ⟨moved.planes.inRange hp, fun p hm => ?_⟩
    rcases List.mem_cons.mp (moved.papers hm) with rfl | hm
    · exact startPaper_le hr
    · exact hl p hm

/-- The five drawing commands of the raster path (R104). -/
theorem drawing_rasterWork {c : Instr} {s t : State}
    (hc : c = .pagePaperFill ∨ c = .lineSet ∨ c = .glyphSpanDrawn ∨ c = .overlayLineDone ∨ c = .retintLineRedrawn)
    (h : exec c s = .next t) : RasterWork (fun _ => True) s t := by
  rcases hc with rfl | rfl | rfl | rfl | rfl <;> cases h
  · exact pagePaperFill_rasterWork (fun _ _ => trivial) (fun _ _ _ => trivial)
  · exact lineSet_rasterWork s
  · exact glyphSpanDrawn_rasterWork s
  · exact overlayLineDone_rasterWork s
  · exact retintLineRedrawn_rasterWork (fun _ _ _ => trivial)

/-- Settles O40: the drawing commands are work of the raster path, and a step without a paper fill darkens W. -/
theorem drawingTouchesOnlyW : Obligations.DrawingTouchesOnlyW := by
  refine ⟨fun c s t hc h => ?frame, fun s t x y hw _ ha hb hq hr h => ?darker⟩
  case frame =>
    have work := drawing_rasterWork hc h
    have sched : t.sched = { s.sched with tiles := t.sched.tiles } := congrArg State.sched work.rest
    have planes : t.planes = { s.planes with w := t.planes.w } := congrArg State.planes work.rest
    exact ⟨congrArg (·.t) planes, congrArg (·.g) planes, work.dirtied.1, congrArg (·.queue) sched,
      congrArg (·.lanes) work.rest, congrArg (·.notes) work.rest, congrArg (·.flows) work.rest,
      congrArg (·.styles) work.rest, congrArg (·.store) work.rest, congrArg (·.settings) work.rest,
      congrArg (·.link) work.rest, work.dirtied.2⟩
  case darker =>
    have moved := step_stepPaints (paper := fun _ => False) (fun rest hp => absurd hp (hq rest))
      (fun run ⟨e, he, hrun⟩ hp => hr e he run hrun hp) h
    exact moved.planes.darker hw ha hb x y

end Sys2Proof.Machine
end

section
/-! SUPPORT. Operations on W pixel by pixel and tile by tile: the page fill of a job's area, and a glyph entry inside its clip
region (R105 to R108, R111). -/

namespace Sys2Proof.Machine

/-! ### A rectangle clipped to a region (R105) -/

/-- The columns of a clipped rectangle that holds a pixel end within the region. -/
theorem clipRect_columns (x y : Int) (w h : Nat) (clip : PRect) :
    (clipRect x y w h clip).w = 0 ∨ (clipRect x y w h clip).x + (clipRect x y w h clip).w ≤ clip.x + clip.w :=
  clipSpan_stop x w clip.x (clip.x + clip.w)

/-- A drawing operation on W, pixel by pixel (R104). -/
theorem pixelAt_drawRect {r : PRect} (hr : r.w = 0 ∨ r.x + r.w ≤ 4096) (addressed : Nat → Nat → Bool)
    (level : Nat → Nat → Nat → Nat) {s : State} (hw : PlaneWf s.planes.w) (x y : Nat) (hx : x < 4096) :
    pixelAt (drawRect r addressed level s).planes.w x y
      = if (r.x ≤ x ∧ x < r.x + r.w ∧ r.y ≤ y ∧ y < r.y + r.h) ∧ addressed x y = true then
          level x y (pixelAt s.planes.w x y)
        else pixelAt s.planes.w x y := by
  rw [drawRect_w, pixelAt_planeRect r _ _ hw hr x y hx]
  exact (ite_and ..).symm

/-! ### The tiles that an operation marks (R102, R111) -/

/-- Some pixel of a rectangle is addressed. -/
theorem anyPixel_iff (r : PRect) (addressed : Nat → Nat → Bool) :
    anyPixel r addressed = true
      ↔ ∃ x y, (r.x ≤ x ∧ x < r.x + r.w ∧ r.y ≤ y ∧ y < r.y + r.h) ∧ addressed x y = true := by
  simp only [anyPixel, List.any_eq_true, List.mem_range'_1]
  constructor
  · rintro ⟨y, hy, x, hx, ha⟩
    exact ⟨x, y, ⟨hx.1, hx.2, hy⟩, ha⟩
  · rintro ⟨x, y, ⟨hx1, hx2, hy⟩, ha⟩
    exact ⟨y, hy, x, ⟨hx1, hx2⟩, ha⟩

/-- Some addressed pixel of a rectangle lies in a tile. -/
theorem anyPixel_tile (r : PRect) (addressed : Nat → Nat → Bool) (tx ty : Nat) :
    anyPixel (clipRect r.x r.y r.w r.h (tilePixels tx ty)) addressed = true
      ↔ ∃ x y, (r.x ≤ x ∧ x < r.x + r.w ∧ r.y ≤ y ∧ y < r.y + r.h ∧ x / 64 = tx ∧ y / 64 = ty) ∧ addressed x y = true := by
  rw [anyPixel_iff]
  refine exists_congr fun x => exists_congr fun y => and_congr_left fun _ => ?_
  rw [mem_clipRect]
  simp only [tilePixels]
  omega

/-- An operation sets work-dirty on the tiles that hold an addressed pixel, and leaves every other tile (R111). -/
theorem drawRect_tiles (r : PRect) (addressed : Nat → Nat → Bool) (level : Nat → Nat → Nat → Nat) {s : State} {i : Nat}
    {t : TileRec} (ht : s.sched.tiles[i]? = some t) :
    (drawRect r addressed level s).sched.tiles[i]?
      = some
        (if anyPixel (clipRect r.x r.y r.w r.h (tilePixels (i % tileCols s) (i / tileCols s))) addressed = true then
          { t with workDirty := true } else t) := by
  simp only [drawRect, markTiles_getElem?, ht, Option.map_some]

/-! ### PAGE_PAPER_FILL of a compose job (R51, R106) -/

theorem pagePaperFill_job {s : State} {j : Job} (hs : s.comp.started = some j) (hr : j.running = true)
    (hp : j.phase = .fill) :
    pagePaperFill s = withJob { j with phase := .lines } (paperFill (jobArea s j.spec) j.paper s) := by
  simp only [pagePaperFill, runningJob_eq hs hr, hp]

/-- Settles O33: the fill is one operation that addresses every pixel of the job's area. -/
theorem paperFillCoversArea : Obligations.PaperFillCoversArea := by
  rintro s j a hs hr hp hw rfl hpanel
  have columns : (jobArea s j.spec).w = 0 ∨ (jobArea s j.spec).x + (jobArea s j.spec).w ≤ 4096 :=
    (clipRect_columns _ _ _ _ (panelRect s)).imp_right fun h => by
      have width : (panelRect s).x + (panelRect s).w = panelWidth s := Nat.zero_add _
      exact (width ▸ h).trans hpanel
  refine ⟨(paperFill (jobArea s j.spec) j.paper s).planes.w, (paperFill (jobArea s j.spec) j.paper s).sched.tiles,
    congrArg Host.Outcome.next (pagePaperFill_job hs hr hp), fun x y hx => ?pixels, (drawRect_drawn _ _ _ s).2.2.1, fun i t ht => ⟨fun hin => ?marked, fun hout => ?kept⟩⟩
  case pixels =>
    refine (pixelAt_drawRect columns _ _ hw x y hx).trans (if_congr ?_ rfl rfl)
    exact and_iff_left rfl
  case marked =>
    refine (drawRect_tiles _ _ _ ht).trans (congrArg some (if_pos ((anyPixel_tile _ _ _ _).mpr ?_)))
    obtain ⟨x, y, h⟩ := hin
    exact ⟨x, y, h, rfl⟩
  case kept =>
    refine (drawRect_tiles _ _ _ ht).trans (congrArg some (if_neg fun h => hout ?_))
    obtain ⟨x, y, h, -⟩ := (anyPixel_tile _ _ _ _).mp h
    exact ⟨x, y, h⟩

/-! ### A glyph entry (R107, R108) -/

/-- A real glyph's coverage is its map's (R108). -/
theorem entryCoverage_glyph {e : DrawEntry} {g : GlyphRec} (h : e.glyph = some g) (x y : Nat) :
    entryCoverage e x y = g.coverage.getD (((y : Int) - e.row).toNat * e.width + ((x : Int) - e.col).toNat) 0 := by
  simp only [entryCoverage, h]

/-- The glyph formula: a pixel without coverage, or as dark as the ink, stays (R107). -/
theorem glyphLevel_covered (p k c : Nat) :
    (if 0 < c then glyphLevel p k c else p) = if c = 0 ∨ p ≤ k then p else p - (p - k) * c / 15 := by
  rcases Nat.eq_zero_or_pos c with rfl | hc
  · simp
  · have covered : c ≠ 0 := Nat.ne_of_gt hc
    simp only [hc, if_true, glyphLevel, covered, false_or, gt_iff_lt, ← Nat.not_le, ite_not]

/-- A glyph entry on W, pixel by pixel: a covered pixel of its rectangle inside the clip region takes the glyph formula's level
(R105, R107). -/
theorem pixelAt_drawEntry {s : State} (hw : PlaneWf s.planes.w) {clip : PRect} (hc : clip.x + clip.w ≤ 4096) (e : DrawEntry)
    (x y : Nat) (hx : x < 4096) :
    pixelAt (drawEntry clip s e).planes.w x y
      = if (clip.x ≤ x ∧ x < clip.x + clip.w ∧ clip.y ≤ y ∧ y < clip.y + clip.h ∧ e.col ≤ x ∧ (x : Int) < e.col + e.width
            ∧ e.row ≤ y ∧ (y : Int) < e.row + e.height) ∧ 0 < entryCoverage e x y then
          glyphLevel (pixelAt s.planes.w x y) e.ink (entryCoverage e x y)
        else pixelAt s.planes.w x y := by
  refine (pixelAt_drawRect ((clipRect_columns _ _ _ _ clip).imp_right (·.trans hc)) _ _ hw x y hx).trans
    (if_congr ?_ rfl rfl)
  rw [mem_clipRect, decide_eq_true_eq]
  omega

/-- Settles O37: the entry's pixel law, with the coverage of its map. -/
theorem glyphIsDrawnInsideClip : Obligations.GlyphIsDrawnInsideClip := by
  rintro s e g clip x y c p hg hw hc hx rfl rfl
  rw [pixelAt_drawEntry hw hc e x y hx, entryCoverage_glyph hg]
  refine ⟨fun hin => ?inside, fun hout => if_neg fun h => hout h.1⟩
  case inside =>
    rw [← glyphLevel_covered]
    exact if_congr (and_iff_right hin) rfl rfl

end Sys2Proof.Machine
end

section
/-! SUPPORT. What ACTIVATE answers and leaves: the applied values of the STANDBY class, the part in ACTIVE, and the planes filled when
the geometry is not the one last active (R103, R166, R169). -/

namespace Sys2Proof.Machine

theorem exec_activate {s : State} (h : Ready s) (tag : Byte) :
    exec (.activate tag) s = .next (decided tag 0x05#8 (takeActivate s)) :=
  congrArg Host.Outcome.next (present_ready h tag .activate)

/-! ### An activation in STANDBY (R169) -/

/-- The settings after an activation. -/
theorem activateStandby_settings (s : State) :
    (activateStandby s).1.settings
      = { applyClass .standby s.settings with lastActive := some (geometry (standbyApplied s)), power := .active } := by
  unfold activateStandby
  simp only
  split <;> rfl

/-- The settings of the STANDBY class (Table 11-1). -/
theorem settingClass_standby (id : Nat) : settingClass id = .standby ↔ id ≤ 2 := by
  unfold settingClass
  split_ifs with low <;> simp [low]

/-- The settings of the STANDBY class take their pending values, and the others stay (R166). -/
theorem setting_activateStandby (s : State) (id : Nat) :
    setting (activateStandby s).1.settings id
      = if id ≤ 2 then applyPending (setting s.settings id) else setting s.settings id := by
  rw [activateStandby_settings]
  refine (setting_applyClass .standby s.settings id).trans ?_
  simp only [settingClass_standby]

/-- The frame period begins anew when its length changes (R134, R169). -/
theorem activateStandby_lanes (s : State) :
    (activateStandby s).1.lanes
      = { s.lanes with
          boundaryMs := if applied (activateStandby s).1 2 = applied s 2 then s.lanes.boundaryMs else 0 } := by
  have period : applied (activateStandby s).1 2 = applied (standbyApplied s) 2 := by
    rw [applied, activateStandby_settings]
    rfl
  rw [period, activateStandby]
  simp only [eq_comm (a := applied s 2)]
  split <;> rfl

/-- An activation leaves the blocks that it does not name. -/
theorem activateStandby_rest (s : State) :
    (activateStandby s).1
      = { s with
          comp := (activateStandby s).1.comp, planes := (activateStandby s).1.planes, sched := (activateStandby s).1.sched
          lanes := (activateStandby s).1.lanes, settings := (activateStandby s).1.settings } := by
  unfold activateStandby
  simp only
  split <;> rfl

/-- The planes are filled when the geometry is not the one last active (R169). -/
theorem activateStandby_filled (s : State) :
    (activateStandby s).2 = true ↔ s.settings.lastActive ≠ some (geometry (standbyApplied s)) :=
  decide_eq_true_iff

/-- What the plane fill leaves, and what there is without it (R103). -/
theorem activateStandby_planes (s : State) (b : Bool) (hb : (activateStandby s).2 = b) :
    (activateStandby s).1.planes = (if b then (fillPlanes (standbyApplied s)).planes else s.planes)
      ∧ (activateStandby s).1.sched = (if b then (fillPlanes (standbyApplied s)).sched else s.sched)
      ∧ (activateStandby s).1.comp = (if b then (fillPlanes (standbyApplied s)).comp else s.comp) := by
  subst hb
  unfold activateStandby
  simp only
  split <;> exact ⟨rfl, rfl, rfl⟩

/-- The plane fill leaves no record in a slot (R103). -/
theorem frameAt_fillPlanes (s : State) {slot : Nat} (h : slot < 8) : (frameAt (fillPlanes s).comp slot).state = .free := by
  have held : ∀ i ∈ heldSlots s.comp, (frameAt s.comp i).state ≠ .free := fun i hi => by
    simpa using ((mem_framesWhere _ _ _).mp hi).2
  have released := (releaseAll_spec (heldSlots s.comp) (framesWhere_nodup _ _) s.comp held).1 slot
  rw [fillPlanes, released]
  split
  · rfl
  · next hn =>
    by_contra hs
    exact hn ((mem_framesWhere _ _ _).mpr ⟨h, by simpa using hs⟩)

/-- Settles O13: ACTIVE answers without a change; in STANDBY the settings, the planes and the lanes after the activation. -/
theorem activateAppliesAndFills : Obligations.ActivateAppliesAndFills := by
  intro s tag hr _
  refine ⟨fun ha => ?active, fun hp => ?standby⟩
  case active =>
    rw [exec_activate hr, takeActivate, if_pos (by simp [ha])]
    rfl
  case standby =>
    have low : ∀ id, id ≤ 2 → setting (activateStandby s).1.settings id = applyPending (setting s.settings id) :=
      fun id hid => (setting_activateStandby s id).trans (if_pos hid)
    have taken : ∀ id, id ≤ 2 → applied (activateStandby s).1 id = (setting s.settings id).pending.getD (applied s id) :=
      fun id hid => congrArg Setting.applied (low id hid)
    have settings := activateStandby_settings s
    have geometry_eq : geometry (standbyApplied s) = (applied (activateStandby s).1 0, applied (activateStandby s).1 1) := by
      simp only [applied, settings]
      rfl
    have rest := activateStandby_rest s
    refine ⟨applied (activateStandby s).1 0, applied (activateStandby s).1 1, applied (activateStandby s).1 2,
      (activateStandby s).2, (activateStandby s).1, ?reply, taken 0 (by decide), taken 1 (by decide), taken 2 (by decide),
      ?filled, congrArg Settings.power settings, ?lastActive, rfl, rfl, rfl,
      fun id hid => (setting_activateStandby s id).trans (if_neg (by omega)), fun id hid => congrArg Setting.pending (low id hid),
      fun hf => ?blank, fun hf => activateStandby_planes s false hf, activateStandby_lanes s, congrArg (·.pins) rest,
      congrArg (·.link) rest, congrArg (·.flows) rest, congrArg (·.styles) rest, congrArg (·.store) rest,
      congrArg (·.notes) rest, congrArg (·.notices) rest, congrArg (·.pending) rest⟩
    case reply =>
      rw [exec_activate hr, takeActivate, if_neg (by simp [hp])]
      rfl
    case filled => rw [activateStandby_filled, geometry_eq]
    case lastActive => exact (congrArg Settings.lastActive settings).trans (congrArg some geometry_eq)
    case blank =>
      obtain ⟨planes, sched, comp⟩ := activateStandby_planes s true hf
      have tiles : tileTotal (standbyApplied s)
          = applied (activateStandby s).1 0 / 64 * (applied (activateStandby s).1 1 / 64) := by
        obtain ⟨width, height⟩ := Prod.mk.inj geometry_eq
        rw [← width, ← height]
        rfl
      refine ⟨planes, ?_, fun slot h => ?_⟩
      · rw [← tiles]
        exact sched
      · rw [comp]
        exact frameAt_fillPlanes (standbyApplied s) h

end Sys2Proof.Machine
end

section
/-! SUPPORT. Flights: which tiles are in flight with which lane, and which rectangle each lane drives.  The requests of a ready part
leave them alone, but for a change of the power state (R114, R127, R133). -/

namespace Sys2Proof.Machine

/-! ### Flights and drives -/

/-- What a tile record says of its flight: whether it is in flight, and its lane (R114). -/
def flightOf (t : TileRec) : Bool × Option Nat := (inFlight t, t.lane)

/-- The rectangle that a lane drives (R133). -/
def laneRect : Lane → Option TileRect
  | .free => none
  | .driving d => some d.rect

theorem laneRect_none (x : Lane) : laneRect x = none ↔ x = .free := by cases x <;> simp [laneRect]

/-- A lane drives a rectangle that holds the tile (R127, R133). -/
def DrivesTile (s : State) (l i : Nat) : Prop :=
  ∃ d, s.lanes.lanes[l]? = some (.driving d) ∧ inTileRect d.rect (i % tileCols s) (i / tileCols s) = true

theorem drivesTile_iff (s : State) (l i : Nat) :
    DrivesTile s l i ↔ ∃ r, (s.lanes.lanes.map laneRect)[l]? = some (some r)
      ∧ inTileRect r (i % tileCols s) (i / tileCols s) = true := by
  simp only [DrivesTile, List.getElem?_map]
  cases s.lanes.lanes[l]? with
  | none => simp
  | some x => cases x <;> simp [laneRect]

/-- No lane drives. -/
def LanesFree (s : State) : Prop := ∀ x ∈ s.lanes.lanes, x = .free

theorem LanesFree.not_drives {s : State} (h : LanesFree s) (l i : Nat) : ¬DrivesTile s l i := by
  rintro ⟨d, hd, -⟩
  cases h _ (List.mem_of_getElem? hd)

theorem flightDiscipline_iff (s : State) :
    FlightDiscipline s ↔ s.lanes.lanes.length = 8 ∧ (s.settings.power ≠ .active → LanesFree s)
      ∧ ∀ i t, s.sched.tiles[i]? = some t →
        (inFlight t = true ↔ t.lane.isSome = true) ∧ ∀ l, t.lane = some l ↔ DrivesTile s l i := Iff.rfl

/-- Flights, the lanes' rectangles, the panel and the power state stay. -/
structure FlightsKept (s t : State) : Prop where
  tiles : t.sched.tiles.map flightOf = s.sched.tiles.map flightOf
  lanes : t.lanes.lanes.map laneRect = s.lanes.lanes.map laneRect
  width : panelWidth t = panelWidth s
  power : t.settings.power = s.settings.power

theorem FlightsKept.drives {s t : State} (h : FlightsKept s t) (l i : Nat) : DrivesTile t l i ↔ DrivesTile s l i := by
  rw [drivesTile_iff, drivesTile_iff, h.lanes, tileCols, tileCols, h.width]

theorem lanesFree_iff (s : State) : LanesFree s ↔ ∀ r ∈ s.lanes.lanes.map laneRect, r = none := by
  simp [LanesFree, laneRect_none]

/-- A tile's record before, for one that stands in a table with the same flights. -/
theorem flight_before {old new : List TileRec} (h : new.map flightOf = old.map flightOf) {i : Nat} {b : TileRec}
    (hb : new[i]? = some b) : ∃ a, old[i]? = some a ∧ flightOf b = flightOf a := by
  have found : (old.map flightOf)[i]? = some (flightOf b) := by rw [← h, List.getElem?_map, hb, Option.map_some]
  rw [List.getElem?_map, Option.map_eq_some_iff] at found
  obtain ⟨a, ha, heq⟩ := found
  exact ⟨a, ha, heq.symm⟩

theorem FlightsKept.discipline {s t : State} (h : FlightsKept s t) (hs : FlightDiscipline s) : FlightDiscipline t := by
  obtain ⟨count, away, matched⟩ := (flightDiscipline_iff s).mp hs
  refine (flightDiscipline_iff t).mpr ⟨?_, fun hp => ?_, fun i b hb => ?_⟩
  · rw [← List.length_map (f := laneRect), h.lanes, List.length_map, count]
  · rw [lanesFree_iff, h.lanes, ← lanesFree_iff]
    exact away (by rwa [← h.power])
  · obtain ⟨a, ha, heq⟩ := flight_before h.tiles hb
    obtain ⟨flight, lane⟩ := Prod.mk.inj heq
    simp only [flight, lane, h.drives]
    exact matched i a ha

/-! ### A part whose lanes are free -/

/-- A tile record that is not in flight and has no lane. -/
def Landed (t : TileRec) : Prop := flightOf t = (false, none)

/-- With every lane FREE no tile is in flight. -/
theorem FlightDiscipline.landed {s : State} (h : FlightDiscipline s) (free : LanesFree s) : ∀ a ∈ s.sched.tiles, Landed a := by
  intro a ha
  obtain ⟨i, hi⟩ := List.mem_iff_getElem?.mp ha
  obtain ⟨flight, lane⟩ := ((flightDiscipline_iff s).mp h).2.2 i a hi
  have none : a.lane = none := Option.eq_none_iff_forall_ne_some.mpr fun l hl => free.not_drives l i ((lane l).mp hl)
  rw [none] at flight
  rw [Landed, flightOf, none]
  simpa using flight

/-- Without flights and with every lane FREE the two match. -/
theorem flightDiscipline_of_landed {t : State} (count : t.lanes.lanes.length = 8) (free : LanesFree t)
    (tiles : ∀ a ∈ t.sched.tiles, Landed a) : FlightDiscipline t := by
  refine (flightDiscipline_iff t).mpr ⟨count, fun _ => free, fun i a ha => ?_⟩
  obtain ⟨flight, lane⟩ := Prod.mk.inj (tiles a (List.mem_of_getElem? ha))
  rw [flight, lane]
  exact ⟨by simp, fun l => ⟨fun h => (by cases h), fun h => absurd h (free.not_drives l i)⟩⟩

/-- A change of the power state: the lanes, all FREE, stay, and the tiles with T stay too or are as the plane fill makes them
(R103, R169, R170, R172). -/
structure Parked (s t : State) : Prop where
  free : s.settings.power ≠ .active ∨ LanesFree s
  lanes : t.lanes.lanes = s.lanes.lanes
  tiles : t.sched.tiles = s.sched.tiles ∧ t.planes.t = s.planes.t ∨ ∀ a ∈ t.sched.tiles, Landed a

theorem Parked.discipline {s t : State} (h : Parked s t) (hs : FlightDiscipline s) : FlightDiscipline t := by
  obtain ⟨count, away, -⟩ := (flightDiscipline_iff s).mp hs
  have free : LanesFree s := h.free.elim away id
  refine flightDiscipline_of_landed (by rw [h.lanes, count]) (by rw [LanesFree, h.lanes]; exact free) ?_
  rcases h.tiles with ⟨same, -⟩ | landed
  · rw [same]
    exact hs.landed free
  · exact landed

/-! ### Work that leaves the panel alone -/

/-- T, the tile table and the lanes stay. -/
structure PanelKept (s t : State) : Prop where
  target : t.planes.t = s.planes.t
  tiles : t.sched.tiles = s.sched.tiles
  lanes : t.lanes.lanes = s.lanes.lanes

theorem PanelKept.refl (s : State) : PanelKept s s := ⟨rfl, rfl, rfl⟩

theorem PanelKept.trans {a b c : State} (h : PanelKept a b) (k : PanelKept b c) : PanelKept a c :=
  ⟨k.target.trans h.target, k.tiles.trans h.tiles, k.lanes.trans h.lanes⟩

theorem PanelKept.flights {s t : State} (h : PanelKept s t) (g : GeometryKept s t) : FlightsKept s t :=
  ⟨by rw [h.tiles], by rw [h.lanes], g.width, g.power⟩

theorem StoreWork.panel {s t : State} (h : StoreWork s t) : PanelKept s t := by
  obtain ⟨st, rfl, -⟩ := h
  exact ⟨rfl, rfl, rfl⟩

theorem LinkWork.panel {s t : State} (h : LinkWork s t) : PanelKept s t := by
  rw [h]
  exact ⟨rfl, rfl, rfl⟩

theorem LinkWork.geometry {s t : State} (h : LinkWork s t) : GeometryKept s t := by
  rw [h]
  exact .of_settings rfl rfl

theorem RepliedTo.panel {u t : State} (h : RepliedTo u t) : PanelKept u t := by
  rcases h with ⟨tag, kind, a, rfl⟩ | ⟨tag, kind, a, rfl⟩ <;> exact ⟨rfl, rfl, rfl⟩

/-! ### Requests -/

theorem takeSet_panel (id v : Nat) (s : State) : PanelKept s (takeSet id v s).1 := by
  unfold takeSet
  iterate 3 (split; · exact .refl s)
  exact ⟨rfl, rfl, rfl⟩

theorem takeFlowAppend_panel (slot : Nat) (l : List RunRecord) (s : State) : PanelKept s (takeFlowAppend slot l s).1 := by
  unfold takeFlowAppend
  iterate 3 (split; · exact .refl s)
  exact ⟨rfl, rfl, rfl⟩

theorem takeFlowClear_panel (slot : Nat) (s : State) : PanelKept s (takeFlowClear slot s).1 := by
  unfold takeFlowClear
  simp only
  iterate 2 (split; · exact .refl s)
  exact ⟨rfl, rfl, rfl⟩

theorem takeStyleDefine_panel (id : Nat) (f : StyleFields) (s : State) : PanelKept s (takeStyleDefine id f s).1 := by
  unfold takeStyleDefine
  iterate 2 (split; · exact .refl s)
  exact ⟨rfl, rfl, rfl⟩

theorem takeCompose_panel (f : ComposeFields) (s : State) : PanelKept s (takeCompose f s).1 := by
  unfold takeCompose
  iterate 5 (split; · exact .refl s)
  exact ⟨rfl, rfl, rfl⟩

theorem takeComposeAbort_panel (tag : Nat) (s : State) : PanelKept s (takeComposeAbort tag s).1 := by
  unfold takeComposeAbort
  split
  · exact ⟨rfl, rfl, rfl⟩
  · split
    · exact .refl s
    · split
      · exact .refl s
      · split <;> exact ⟨rfl, rfl, rfl⟩

theorem takeFrameRelease_panel (slot gen : Nat) (s : State) : PanelKept s (takeFrameRelease slot gen s).1 := by
  unfold takeFrameRelease
  split
  · exact .refl s
  · exact ⟨rfl, rfl, rfl⟩

theorem takeNoteAdd_panel (f : NoteFields) (s : State) : PanelKept s (takeNoteAdd f s).1 := by
  unfold takeNoteAdd
  split
  · exact .refl s
  · iterate 4 (split; · exact .refl s)
    exact ⟨rfl, rfl, rfl⟩

theorem takeNoteChange_panel (id : Nat) (c : NoteChanges) (s : State) : PanelKept s (takeNoteChange id c s).1 := by
  unfold takeNoteChange
  iterate 3 (split; · exact .refl s)
  simp only
  split
  · exact .refl s
  · exact ⟨rfl, rfl, rfl⟩

theorem takeNoteRemove_panel (id : Nat) (s : State) : PanelKept s (takeNoteRemove id s).1 := by
  unfold takeNoteRemove
  iterate 2 (split; · exact .refl s)
  exact ⟨rfl, rfl, rfl⟩

theorem takeCommit_panel (mode cls : Nat) (rect : Option TileRect) (s : State) :
    PanelKept s (takeCommit mode cls rect s).1 := by
  unfold takeCommit
  repeat' split
  all_goals exact ⟨rfl, rfl, rfl⟩

theorem takeRefresh_panel (mode cls : Nat) (rect : Option TileRect) (s : State) :
    PanelKept s (takeRefresh mode cls rect s).1 := by
  unfold takeRefresh
  split
  · exact .refl s
  · split
    · iterate 2 (split; · exact .refl s)
      exact ⟨rfl, (queueUpdate_frame _ _).1, rfl⟩
    · exact .refl s

/-- An owner's work leaves the panel alone, unless it changes the power state (Table 9-3). -/
theorem ownerState_panel {r : Request} (h : changesPower r = false) (s : State) : PanelKept s (ownerState r s) := by
  cases r with
  | activate | standby => cases h
  | status | get | flowInfo | styleRead | fontList | glyphGet | frameInfo | locate | noteList | queueInfo => exact .refl s
  | reset | setTemperature | readNotices | clearNotices => exact ⟨rfl, rfl, rfl⟩
  | set id v => exact takeSet_panel id v s
  | flowAppend slot l => exact takeFlowAppend_panel slot l s
  | flowClear slot => exact takeFlowClear_panel slot s
  | styleDefine id f => exact takeStyleDefine_panel id f s
  | fontBegin slot header => exact (takeFontBegin_work slot header s).panel
  | glyphPut slot i l => exact (takeGlyphPut_work slot i l s).panel
  | fontEnd slot => exact (takeFontEnd_work slot s).panel
  | fontDrop slot => exact (takeFontDrop_work slot s).panel
  | fontLock slot => exact (takeFontLock_work slot s).panel
  | fontCheck slot => exact (takeFontCheck_work slot s).panel
  | protectRaise b => exact (takeProtectRaise_work b s).panel
  | storeWipe => exact (takeStoreWipe_work s).panel
  | compose f => exact takeCompose_panel f s
  | composeAbort t => exact takeComposeAbort_panel t s
  | frameRelease slot gen => exact takeFrameRelease_panel slot gen s
  | noteAdd n => exact takeNoteAdd_panel n s
  | noteChange id c => exact takeNoteChange_panel id c s
  | noteRemove id => exact takeNoteRemove_panel id s
  | commit m c r => exact takeCommit_panel m c r s
  | refresh m c r => exact takeRefresh_panel m c r s

/-- ACTIVATE finds the lanes FREE, and fills the planes or leaves T and the tiles (R103, R169). -/
theorem takeActivate_flights (s : State) : (takeActivate s).1 = s ∨ Parked s (takeActivate s).1 := by
  unfold takeActivate
  split
  · exact .inl rfl
  · next away =>
    have lanes : (activateStandby s).1.lanes.lanes = s.lanes.lanes := by rw [activateStandby_lanes]
    refine .inr ⟨.inl (by simpa using away), lanes, ?_⟩
    obtain ⟨planes, sched, -⟩ := activateStandby_planes s _ rfl
    rw [planes, sched]
    cases (activateStandby s).2 with
    | false => exact .inl ⟨rfl, rfl⟩
    | true =>
      refine .inr fun a ha => ?_
      rw [List.eq_of_mem_replicate (show a ∈ List.replicate (tileTotal (standbyApplied s)) TileRec.fresh from ha)]
      rfl

/-- No lane is busy only when all are FREE. -/
theorem lanesFree_of_not_busy {s : State} (h : standbyLanes s = false) : LanesFree s := by
  intro x hx
  have none : busyLanes s.lanes.lanes = 0 := by simpa [standbyLanes] using h
  simpa using List.countP_eq_zero.mp none x hx

/-- STANDBY leaves ACTIVE with every lane FREE (R170). -/
theorem takeStandby_flights (s : State) : (takeStandby s).1 = s ∨ Parked s (takeStandby s).1 := by
  unfold takeStandby
  iterate 2 (split; · exact .inl rfl)
  next idle =>
    simp only [standbyRefused, Bool.or_eq_true, not_or, Bool.not_eq_true] at idle
    exact .inr ⟨.inr (lanesFree_of_not_busy idle.2), rfl, .inl ⟨rfl, rfl⟩⟩

/-- What a request may do to the flights: leave them and T, or change the power state over FREE lanes. -/
def Rests (s t : State) : Prop := FlightsKept s t ∧ t.planes.t = s.planes.t ∨ Parked s t

theorem PanelKept.rests {s t : State} (h : PanelKept s t) (g : GeometryKept s t) : Rests s t := .inl ⟨h.flights g, h.target⟩

theorem Rests.refl (s : State) : Rests s s := (PanelKept.refl s).rests (.refl s)

theorem ownerState_rests (r : Request) (s : State) : Rests s (ownerState r s) := by
  have changed : ∀ {t : State}, t = s ∨ Parked s t → Rests s t :=
    fun h => h.elim (fun same => by rw [same]; exact .refl s) .inr
  cases hc : changesPower r with
  | false => exact (ownerState_panel hc s).rests (ownerState_quiet hc s).geometry
  | true =>
    cases r with
    | activate => exact changed (takeActivate_flights s)
    | standby => exact changed (takeStandby_flights s)
    | _ => cases hc

end Sys2Proof.Machine
end

section
/-! SUPPORT. What every step does to the flights: it leaves them and T, changes the power state, or is a latch, a dispatch scan or a
completion (R115, R117, R127, R143). -/

namespace Sys2Proof.Machine

/-! ### Events that leave the flights alone -/

/-- Drawing marks tiles and leaves their flights (R111). -/
theorem OnlyDirtied.flights {old new : List TileRec} (h : OnlyDirtied old new) : new.map flightOf = old.map flightOf := by
  obtain ⟨length, entries⟩ := h
  refine List.ext_getElem? fun i => ?_
  rw [List.getElem?_map, List.getElem?_map]
  cases ha : old[i]? with
  | none => rw [List.getElem?_eq_none (by rw [length]; exact List.getElem?_eq_none_iff.mp ha)]
  | some a =>
    rcases entries i a ha with hb | hb
    · rw [hb]
    · rw [hb]
      rfl

theorem RasterWork.rests {paper : Nat → Prop} {s t : State} (h : RasterWork paper s t) : Rests s t := by
  have planes : t.planes = { s.planes with w := t.planes.w } := congrArg State.planes h.rest
  have settings : t.settings = s.settings := by rw [h.rest]
  have lanes : t.lanes = s.lanes := by rw [h.rest]
  have g : GeometryKept s t := .of_settings h.dirtied.1 settings
  exact .inl ⟨⟨h.dirtied.flights, by rw [lanes], g.width, g.power⟩, congrArg (·.t) planes⟩

theorem continueLatch_panel (c : CommitSpec) (next : Nat) (copied : List Nat) (deferred : Nat) (s : State) :
    PanelKept s (continueLatch c next copied deferred s) := by
  unfold continueLatch
  split
  · exact ⟨rfl, rfl, rfl⟩
  · refine ⟨rfl, ?_, rfl⟩
    simp only [endLatch, post]
    split
    · split
      · exact (queueUpdate_frame _ _).1
      · rfl
    · rfl

theorem rasterPathGrant_panel (s : State) : PanelKept s (rasterPathGrant s) := by
  unfold rasterPathGrant
  split
  · split
    · exact ⟨rfl, rfl, rfl⟩
    · split
      · have granted : PanelKept s { s with comp := { s.comp with path := .latch } } := ⟨rfl, rfl, rfl⟩
        exact granted.trans (continueLatch_panel _ _ _ _ _)
      · split
        · exact ⟨rfl, rfl, rfl⟩
        · split
          · exact ⟨rfl, rfl, rfl⟩
          · exact .refl s
  · exact .refl s

/-- The ends of store operations (R32 to R39). -/
theorem fontEnds_panel (s : State) :
    PanelKept s (fontEndComplete s) ∧ PanelKept s (fontDropComplete s) ∧ PanelKept s (fontLockComplete s)
      ∧ PanelKept s (fontCheckComplete s) ∧ PanelKept s (protectRaiseComplete s) ∧ PanelKept s (storeWipeComplete s) := by
  refine ⟨?_, ?_, ?_, ?_, ?_, ?_⟩
  · unfold fontEndComplete
    split <;> exact ⟨rfl, rfl, rfl⟩
  · unfold fontDropComplete
    split
    · split <;> exact ⟨rfl, rfl, rfl⟩
    · exact .refl s
  · unfold fontLockComplete
    split <;> exact ⟨rfl, rfl, rfl⟩
  · unfold fontCheckComplete
    split
    · simp only
      split <;> exact ⟨rfl, rfl, rfl⟩
    · exact .refl s
  · unfold protectRaiseComplete
    split <;> exact ⟨rfl, rfl, rfl⟩
  · unfold storeWipeComplete
    split <;> exact ⟨rfl, rfl, rfl⟩

theorem OperationEnds.geometry {s t : State} (h : OperationEnds s t) : GeometryKept s t := by
  rcases h with rfl | ⟨a, u, hu, -, rfl⟩
  · exact .refl t
  · exact hu.geometry.trans (.of_settings rfl rfl)

theorem deghostExpiry_panel (s : State) : PanelKept s (deghostExpiry s) := by
  unfold deghostExpiry
  split
  · refine ⟨rfl, ?_, rfl⟩
    simp only
    split
    · split
      · exact (queueUpdate_frame _ _).1
      · rfl
    · rfl
  · exact .refl s

theorem temperatureStale_panel (s : State) : PanelKept s (temperatureStale s) := by
  unfold temperatureStale
  split
  · exact ⟨rfl, rfl, rfl⟩
  · exact .refl s

theorem releaseReset_panel (s : State) : PanelKept s (releaseReset s) := ⟨rfl, rfl, rfl⟩
theorem setDriveHold_panel (level : Bool) (s : State) : PanelKept s (setDriveHold level s) := ⟨rfl, rfl, rfl⟩

/-- The start-up scan ends STARTING (R172). -/
theorem startupScanEnd_rests (s : State) : Rests s (startupScanEnd s) := by
  unfold startupScanEnd
  split
  · next starting => exact .inr ⟨.inl (by rw [starting.1]; decide), rfl, .inl ⟨rfl, rfl⟩⟩
  · exact .refl s

theorem laneRect_oweFrame (x : Lane) : laneRect (oweFrame x) = laneRect x := by cases x <;> rfl

/-- A boundary counts the frames owed and leaves the rectangles (R135). -/
theorem panelFrameBoundary_rests (s : State) : Rests s (panelFrameBoundary s) := by
  unfold panelFrameBoundary
  split
  · refine .inl ⟨⟨rfl, ?_, rfl, rfl⟩, rfl⟩
    rw [List.map_map]
    exact List.map_congr_left fun x _ => laneRect_oweFrame x
  · exact .refl s

/-- A lane that drives, by its place. -/
theorem laneAt_driving {s : State} {lane : Nat} {d : Drive} (h : laneAt s lane = .driving d) :
    s.lanes.lanes[lane]? = some (.driving d) := by
  rw [laneAt, List.getD_eq_getElem?_getD] at h
  cases hl : s.lanes.lanes[lane]? with
  | none => rw [hl] at h; cases h
  | some x => rw [hl] at h; exact congrArg some h

/-- An entry changed in what a function does not read. -/
theorem map_set_eq {α β : Type} (f : α → β) {l : List α} {i : Nat} {x y : α} (h : l[i]? = some y) (same : f x = f y) :
    (l.set i x).map f = l.map f := by
  obtain ⟨lt, rfl⟩ := List.getElem?_eq_some_iff.mp h
  rw [List.map_set, same, ← List.getElem_map f (h := by rwa [List.length_map]), List.set_getElem_self]

/-- A lane's frame is counted and its rectangle stays (R135). -/
theorem laneFrame_rests (lane : Nat) (s : State) : Rests s (laneFrame lane s) := by
  unfold laneFrame
  split
  · exact .refl s
  · next d hd =>
    split
    · exact .inl ⟨⟨rfl, map_set_eq laneRect (laneAt_driving hd) rfl, rfl, rfl⟩, rfl⟩
    · exact .refl s

/-! ### Steps -/

/-- What a step may do to the flights. -/
inductive FlightMove (s : State) : State → Prop
  | rests {t : State} (h : Rests s t) : FlightMove s t
  | blank {t : State} (lanes : t.lanes.lanes = List.replicate 8 .free) (tiles : t.sched.tiles = []) : FlightMove s t
  | latches : FlightMove s (latchTile s)
  | scans : FlightMove s (dispatchScan s)
  | completes (lane : Nat) : FlightMove s (updateCompletion lane s)

theorem PanelKept.move {s t : State} (h : PanelKept s t) (g : GeometryKept s t) : FlightMove s t := .rests (h.rests g)

theorem LinkWork.move {s t : State} (h : LinkWork s t) : FlightMove s t := h.panel.move h.geometry

/-- Work between changes of the link, and a reply after it. -/
theorem Rests.between {s v u t : State} (h : Rests v u) (hv : LinkWork s v) (ht : RepliedTo u t) : Rests s t := by
  have panel := ht.panel
  have geometry := ht.linkOnly.geometry
  rw [hv] at h
  rcases h with ⟨kept, target⟩ | ⟨free, lanes, tiles⟩
  · exact .inl ⟨⟨(panel.flights geometry).tiles.trans kept.tiles, (panel.flights geometry).lanes.trans kept.lanes,
      geometry.width.trans kept.width, geometry.power.trans kept.power⟩, panel.target.trans target⟩
  · refine .inr ⟨free, panel.lanes.trans lanes, ?_⟩
    rw [panel.tiles, panel.target]
    exact tiles

theorem TakenFrom.rests {v u : State} (h : TakenFrom v u) : Rests v u := by
  cases h with
  | refused => exact .refl _
  | owner r => exact ownerState_rests r v

theorem present_move (tag : Byte) (r : Request) (s : State) : FlightMove s (present tag r s) := by
  rcases present_cases tag r s with he | ⟨q, he⟩ | ⟨-, u, hu, ht⟩
  · rw [he]
    exact .rests (.refl s)
  · rw [he]
    exact (arrive_linkWork q s).move
  · exact .rests (hu.rests.between (.refl s) ht)

theorem handOver_move (s : State) : FlightMove s (handOver s) := by
  rcases handOver_cases s with he | ⟨q, rest, -, -, u, hu, ht⟩
  · rw [he]
    exact .rests (.refl s)
  · exact .rests (hu.rests.between rfl ht)

/-- At the port the link works, or a RESET takes effect (R147, R156). -/
theorem portEvents_move (l : List PortEvent) (s : State) : FlightMove s (portEvents l s) := by
  have result : LinkWork s (portEvents l s)
      ∨ (portEvents l s).lanes.lanes = List.replicate 8 .free ∧ (portEvents l s).sched.tiles = [] := by
    refine portEvents_keeps_linkWork
      (P := fun u => LinkWork s u ∨ u.lanes.lanes = List.replicate 8 .free ∧ u.sched.tiles = [])
      (fun hw h => ?_) (fun _ => .inr ⟨rfl, rfl⟩) l (.inl (.refl s))
    refine h.imp (fun hs => hs.trans hw) fun hb => ?_
    rw [hw]
    exact hb
  rcases result with h | ⟨lanes, tiles⟩
  · exact h.move
  · exact .blank lanes tiles

theorem replySent_move (s : State) : FlightMove s (replySent s) := by
  unfold replySent
  split
  · exact .rests (.refl s)
  · exact portEvents_move _ s

/-- What an event does to the flights. -/
theorem eventState_move (i : Instr) (s : State) : FlightMove s (eventState i s) := by
  have allPapers : PaperDue (fun _ => True) s.comp := fun _ _ _ => trivial
  obtain ⟨fontEnd, fontDrop, fontLock, fontCheck, protectRaise, storeWipe⟩ := fontEnds_panel s
  cases i with
  | frameReceived l => exact portEvents_move l s
  | abandonedFrame second => exact portEvents_move [.byte second] s
  | handOver => exact handOver_move s
  | replySent => exact replySent_move s
  | fontEndComplete => exact fontEnd.move (fontEndComplete_ends s).geometry
  | fontDropComplete => exact fontDrop.move (fontDropComplete_ends s).geometry
  | fontLockComplete => exact fontLock.move (fontLockComplete_ends s).geometry
  | fontCheckComplete => exact fontCheck.move (fontCheckComplete_ends s).geometry
  | protectRaiseComplete => exact protectRaise.move (protectRaiseComplete_ends s).geometry
  | storeWipeComplete => exact storeWipe.move (storeWipeComplete_ends s).geometry
  | writeEntryProgrammed => exact (writeEntryProgrammed_work s).panel.move (writeEntryProgrammed_work s).quiet.geometry
  | rasterPathGrant => exact (rasterPathGrant_panel s).move (rasterPathGrant_quiet s).geometry
  | replayEnd => exact .rests (replayEnd_rasterWork (paper := fun _ => True) s).rests
  | pagePaperFill => exact .rests (pagePaperFill_rasterWork (fun _ _ => trivial) allPapers).rests
  | lineSet => exact .rests (lineSet_rasterWork (paper := fun _ => True) s).rests
  | glyphSpanDrawn => exact .rests (glyphSpanDrawn_rasterWork (paper := fun _ => True) s).rests
  | overlayLineDone => exact .rests (overlayLineDone_rasterWork (paper := fun _ => True) s).rests
  | retintLineRedrawn => exact .rests (retintLineRedrawn_rasterWork allPapers).rests
  | latchTile => exact .latches
  | panelFrameBoundary => exact .rests (panelFrameBoundary_rests s)
  | laneFrame lane => exact .rests (laneFrame_rests lane s)
  | dispatchScan => exact .scans
  | updateCompletion lane => exact .completes lane
  | deghostExpiry => exact (deghostExpiry_panel s).move (deghostExpiry_quiet s).geometry
  | temperatureStale => exact (temperatureStale_panel s).move (temperatureStale_quiet s).geometry
  | resetPin => exact .blank rfl rfl
  | resetPinRelease => exact (releaseReset_panel s).move (quiet_pins s _).geometry
  | driveHoldLevelChange level => exact (setDriveHold_panel level s).move (quiet_pins s _).geometry
  | startupScanEnd => exact .rests (startupScanEnd_rests s)
  | _ => exact .rests (.refl s)

theorem idle_move (s : State) : FlightMove s (idle s) := by
  have ticked : PanelKept s (tick s) := ⟨rfl, rfl, rfl⟩
  have drawn := (overlayOp_rasterWork (paper := fun _ => True) (tick s)).rests
  rcases drawn with ⟨kept, target⟩ | parked
  · exact .rests (.inl ⟨⟨kept.tiles, kept.lanes, kept.width, kept.power⟩, target⟩)
  · exact .rests (.inr ⟨parked.free, parked.lanes, parked.tiles⟩)

theorem Stepped.move {s t : State} (h : Stepped s t) : FlightMove s t := by
  cases h with
  | idles => exact idle_move s
  | presents tag r => exact present_move tag r s
  | takes i => exact eventState_move i s

end Sys2Proof.Machine
end

section
/-! SUPPORT. Latches, dispatch scans and completions keep tiles in flight matched with their lanes, and so does every step (O57; R117,
R125 to R127, R143). -/

namespace Sys2Proof.Machine

/-! ### A tile of the table changed -/

/-- A change that keeps a tile's flight keeps all flights. -/
theorem changeTile_flights {i : Nat} {f : TileRec → TileRec} {s : State}
    (h : flightOf (f (s.sched.tiles.getD i TileRec.fresh)) = flightOf (s.sched.tiles.getD i TileRec.fresh)) :
    (changeTile i f s).sched.tiles.map flightOf = s.sched.tiles.map flightOf := by
  unfold changeTile
  cases ht : s.sched.tiles[i]? with
  | none => rw [List.set_eq_of_length_le (List.getElem?_eq_none_iff.mp ht)]
  | some t =>
    rw [List.getD_eq_getElem?_getD, ht, Option.getD_some] at h ⊢
    exact map_set_eq flightOf ht h

/-- A deferral keeps a tile in flight with its lane (R117). -/
theorem flightOf_deferTile (c : CommitSpec) {t : TileRec} (h : inFlight t = true) : flightOf (deferTile c t) = flightOf t := by
  rw [flightOf, flightOf, h]
  rfl

/-- A latch copies or defers a tile, and keeps its flight (R117). -/
theorem latchTile_flights (s : State) : FlightsKept s (latchTile s) := by
  have geometry := (latchTile_quiet s).geometry
  have tables : (latchTile s).sched.tiles.map flightOf = s.sched.tiles.map flightOf
      ∧ (latchTile s).lanes.lanes = s.lanes.lanes := by
    unfold latchTile
    split
    · next c next copied deferred _ =>
      split
      · next none =>
        have ended := continueLatch_panel c next copied deferred s
        rw [continueLatch, none] at ended
        exact ⟨by rw [ended.tiles], ended.lanes⟩
      · next i _ =>
        split
        · next flying =>
          have goes := continueLatch_panel c (i + 1) copied (deferred + 1) (changeTile i (deferTile c) s)
          exact ⟨by rw [goes.tiles, changeTile_flights (flightOf_deferTile c flying)], goes.lanes⟩
        · have goes := continueLatch_panel c (i + 1) (copied ++ [i]) deferred
            { changeTile i copiedTile s with planes := copyTilePixels (tileCols s) i s.planes }
          have copies : (changeTile i copiedTile s).sched.tiles.map flightOf = s.sched.tiles.map flightOf :=
            changeTile_flights rfl
          exact ⟨(congrArg _ goes.tiles).trans copies, goes.lanes⟩
    · exact ⟨rfl, rfl⟩
  exact ⟨tables.1, by rw [tables.2], geometry.width, geometry.power⟩

/-! ### Dispatch (R126, R127) -/

/-- The tiles of a rectangle in flight are none exactly when each of its tiles is IDLE. -/
theorem rectTiles_inFlight_nil (cols : Nat) (r : TileRect) (tiles : List TileRec) :
    rectTiles cols r inFlight tiles = []
      ↔ ∀ n t, tiles[n]? = some t → inTileRect r (n % cols) (n / cols) = true → inFlight t = false := by
  rw [rectTiles, tilesWhere_nil]
  simp only [Bool.and_eq_false_imp]

/-- Eligibility, said of the queue and the tile table (R126). -/
theorem eligible_iff (s : State) (k : Nat) :
    eligible s k = true ↔ ∃ q, s.sched.queue[k]? = some q
      ∧ (∀ n t, s.sched.tiles[n]? = some t → inTileRect q.rect (n % tileCols s) (n / tileCols s) = true → inFlight t = false)
      ∧ ∀ o ∈ s.sched.queue.take k, tilesOverlap o.rect q.rect = false := by
  unfold eligible
  cases s.sched.queue[k]? with
  | none => simp
  | some q => simp [rectTiles_inFlight_nil]

theorem flyTiles_getElem? (cols lane : Nat) (r : TileRect) (tiles : List TileRec) (i : Nat) :
    (flyTiles cols lane r tiles)[i]? = (tiles[i]?).map fun t =>
      if inTileRect r (i % cols) (i / cols) then { t with state := .flight, lane := some lane, targetNewer := false } else t := by
  rw [flyTiles, mapFrom_getElem?, Nat.zero_add]

/-- A tile that is not in flight has no lane. -/
theorem FlightDiscipline.lane_none {s : State} (h : FlightDiscipline s) {i : Nat} {a : TileRec}
    (ha : s.sched.tiles[i]? = some a) (idle : inFlight a = false) : a.lane = none := by
  have flight := (((flightDiscipline_iff s).mp h).2.2 i a ha).1
  rw [idle] at flight
  simpa using flight

/-- The lanes after a dispatch: the loaded one drives the record's rectangle, the others as before (R127). -/
theorem drivesTile_dispatch {s : State} {lane k : Nat} {q : UpdateRec} (hq : s.sched.queue[k]? = some q)
    (hl : lane < s.lanes.lanes.length) (l i : Nat) :
    DrivesTile (dispatch lane k s) l i
      ↔ if l = lane then inTileRect q.rect (i % tileCols s) (i / tileCols s) = true else DrivesTile s l i := by
  have record : s.sched.queue.getD k UpdateRec.blank = q := by rw [List.getD_eq_getElem?_getD, hq]; rfl
  unfold DrivesTile dispatch
  simp only [record, List.getElem?_set, hl]
  split
  · next same => simp [← same, loadLane, tileCols, panelWidth, applied]
  · next other => simp [Ne.symm other, tileCols, panelWidth, applied]

/-- A dispatch of an eligible record to a FREE lane matches its tiles with that lane (R126, R127). -/
theorem dispatch_discipline {s : State} {lane k : Nat} (h : FlightDiscipline s) (active : s.settings.power = .active)
    (hl : s.lanes.lanes[lane]? = some .free) (hk : eligible s k = true) : FlightDiscipline (dispatch lane k s) := by
  obtain ⟨count, -, matched⟩ := (flightDiscipline_iff s).mp h
  obtain ⟨q, hq, idle, -⟩ := (eligible_iff s k).mp hk
  obtain ⟨lt, -⟩ := List.getElem?_eq_some_iff.mp hl
  have record : s.sched.queue.getD k UpdateRec.blank = q := by rw [List.getD_eq_getElem?_getD, hq]; rfl
  have unused : ∀ i, ¬DrivesTile s lane i := by
    rintro i ⟨d, hd, -⟩
    rw [hl] at hd
    cases hd
  refine (flightDiscipline_iff _).mpr ⟨List.length_set.trans count, fun away => absurd active away, fun i b hb => ?_⟩
  have entry : (flyTiles (tileCols s) lane q.rect s.sched.tiles)[i]? = some b := by rw [← record]; exact hb
  rw [flyTiles_getElem?, Option.map_eq_some_iff] at entry
  obtain ⟨a, ha, rfl⟩ := entry
  simp only [drivesTile_dispatch hq lt]
  obtain ⟨flight, lanes⟩ := matched i a ha
  by_cases inside : inTileRect q.rect (i % tileCols s) (i / tileCols s) = true
  · have others : ∀ l, ¬DrivesTile s l i := fun l hd => by
      have driven := (lanes l).mpr hd
      rw [h.lane_none ha (idle i a ha inside)] at driven
      cases driven
    simp only [inside, if_true, Option.some.injEq]
    refine ⟨by simp [inFlight], fun l => ?_⟩
    by_cases same : l = lane
    · simp [same]
    · simp [same, others l, Ne.symm same]
  · simp only [inside, Bool.false_eq_true, if_false]
    refine ⟨flight, fun l => (lanes l).trans ?_⟩
    by_cases same : l = lane
    · simp [same, unused i]
    · simp [same]

/-- The record that a scan chooses is eligible (R125). -/
theorem chooseRecord_eligible {s : State} {k : Nat} (h : chooseRecord s = some k) : eligible s k = true := by
  have member : k ∈ (List.range s.sched.queue.length).filter (eligible s) := by
    unfold chooseRecord at h
    simp only at h
    split at h
    · next i found =>
      cases h
      exact List.mem_of_find?_eq_some found
    · exact List.mem_of_mem_head? h
  exact (List.mem_filter.mp member).2

theorem visitLane_discipline {s : State} {lane : Nat} (h : FlightDiscipline s) (active : s.settings.power = .active)
    (hl : lane < 8) : FlightDiscipline (visitLane s lane) := by
  have count := ((flightDiscipline_iff s).mp h).1
  unfold visitLane
  split
  · next free =>
    split
    · next k chosen =>
      have lane_free : s.lanes.lanes[lane]? = some .free := by
        rw [List.getD_eq_getElem _ _ (by rwa [count])] at free
        rw [List.getElem?_eq_getElem (by rwa [count]), free]
      exact dispatch_discipline h active lane_free (chooseRecord_eligible chosen)
    · exact h
  · exact h

/-- A scan visits lane after lane (R125). -/
theorem dispatchScan_discipline {s : State} (h : FlightDiscipline s) : FlightDiscipline (dispatchScan s) := by
  unfold dispatchScan
  split
  · next due =>
    simp only [Bool.and_eq_true, beq_iff_eq] at due
    have begun : FlightsKept s
        { s with
          settings := applyBoundary .dispatchBoundary s.settings
          lanes := { s.lanes with scanDue := false } } :=
      ⟨rfl, rfl, applied_boundary (by decide) s (by decide), applyBoundary_power _ _⟩
    refine (List.foldlRecOn (motive := fun u : State => FlightDiscipline u ∧ u.settings.power = .active) _ _
      ⟨begun.discipline h, begun.power.trans due.1⟩ fun u hu lane hl => ?_).1
    exact ⟨visitLane_discipline hu.1 hu.2 (List.mem_range.mp hl), (visitLane_quiet u lane).geometry.power.trans hu.2⟩
  · exact h

/-! ### Completion (R142, R143) -/

theorem flightOf_wearTile (m : Mode) (t : TileRec) : flightOf (wearTile m t) = flightOf t := by cases m <;> rfl

theorem landed_landTile (t : TileRec) : Landed (landTile t) := by
  unfold landTile
  split <;> rfl

/-- The flights after a completion: the lane's tiles have landed, the others fly on (R143). -/
theorem completeTiles_flight (cols lane : Nat) (d : Drive) (tiles : List TileRec) (i : Nat) :
    ((completeTiles cols lane d tiles)[i]?).map flightOf
      = (tiles[i]?).map fun t => if t.lane = some lane then (false, none) else flightOf t := by
  rw [completeTiles, mapFrom_getElem?, Option.map_map]
  congr 1
  funext t
  simp only [Function.comp]
  split
  · exact landed_landTile _
  · split
    · exact flightOf_wearTile _ _
    · rfl

/-- A completion changes the tile table once, and frees the lane (R141 to R145). -/
theorem completeLane_tables (lane : Nat) (d : Drive) (s : State) :
    (completeLane lane d s).sched.tiles = completeTiles (tileCols s) lane d s.sched.tiles
      ∧ (completeLane lane d s).lanes.lanes = s.lanes.lanes.set lane .free := by
  refine ⟨?_, rfl⟩
  have queued : ∀ {a b : Scheduler}, (b = a ∨ ∃ u, b = (queueUpdate u a).1) → b.tiles = a.tiles := by
    rintro a b (rfl | ⟨u, rfl⟩)
    · rfl
    · exact (queueUpdate_frame u a).1
  exact (queued (refineStep_cases _ d)).trans (queued (followUp_cases _ _ _))

theorem drivesTile_completeLane (lane : Nat) (d : Drive) (s : State) (l i : Nat) :
    DrivesTile (completeLane lane d s) l i ↔ l ≠ lane ∧ DrivesTile s l i := by
  have cols : tileCols (completeLane lane d s) = tileCols s := by
    rw [tileCols, (completeLane_quiet lane d s).geometry.width, tileCols]
  simp only [DrivesTile, (completeLane_tables lane d s).2, cols, List.getElem?_set]
  by_cases same : lane = l
  · subst same
    simp only [if_true, ne_eq, not_true_eq_false, false_and, iff_false, not_exists, not_and]
    intro d' hd'
    split at hd' <;> cases hd'
  · simp [same, Ne.symm same]

theorem completeLane_discipline {s : State} {lane : Nat} (d : Drive) (h : FlightDiscipline s) :
    FlightDiscipline (completeLane lane d s) := by
  obtain ⟨count, away, matched⟩ := (flightDiscipline_iff s).mp h
  obtain ⟨tiles, lanes⟩ := completeLane_tables lane d s
  refine (flightDiscipline_iff _).mpr ⟨by rw [lanes, List.length_set, count], fun hp => ?_, fun i b hb => ?_⟩
  · rw [LanesFree, lanes]
    intro x hx
    rcases List.mem_or_eq_of_mem_set hx with hx | rfl
    · exact away (by rwa [← (completeLane_quiet lane d s).geometry.power]) x hx
    · rfl
  · have entry := completeTiles_flight (tileCols s) lane d s.sched.tiles i
    rw [← tiles, hb, Option.map_some, eq_comm, Option.map_eq_some_iff] at entry
    obtain ⟨a, ha, heq⟩ := entry
    obtain ⟨flight, drives⟩ := matched i a ha
    simp only [drivesTile_completeLane]
    split at heq
    · next landing =>
      obtain ⟨hf, hl⟩ := Prod.mk.inj heq
      rw [← hf, ← hl]
      refine ⟨by simp, fun l => ⟨fun hn => (by cases hn), fun ⟨other, hd⟩ => ?_⟩⟩
      have := (drives l).mpr hd
      rw [landing] at this
      exact absurd (Option.some.inj this).symm other
    · next flying =>
      obtain ⟨hf, hl⟩ := Prod.mk.inj heq
      rw [← hf, ← hl]
      refine ⟨flight, fun l => (drives l).trans ⟨fun hd => ⟨?_, hd⟩, And.right⟩⟩
      rintro rfl
      exact flying ((drives l).mpr hd)

theorem updateCompletion_discipline {s : State} (lane : Nat) (h : FlightDiscipline s) :
    FlightDiscipline (updateCompletion lane s) := by
  unfold updateCompletion
  split
  · exact h
  · next d _ =>
    split
    · exact completeLane_discipline d h
    · exact h

/-! ### The obligation -/

theorem Rests.discipline {s t : State} (h : Rests s t) (hs : FlightDiscipline s) : FlightDiscipline t :=
  h.elim (fun kept => kept.1.discipline hs) (fun parked => parked.discipline hs)

theorem FlightMove.discipline {s t : State} (h : FlightMove s t) (hs : FlightDiscipline s) : FlightDiscipline t := by
  cases h with
  | rests h => exact h.discipline hs
  | blank lanes tiles =>
    refine flightDiscipline_of_landed (by rw [lanes]; rfl) (fun x hx => ?_) (by rw [tiles]; exact fun _ ha => nomatch ha)
    rw [lanes] at hx
    exact List.eq_of_mem_replicate hx
  | latches => exact (latchTile_flights s).discipline hs
  | scans => exact dispatchScan_discipline hs
  | completes lane => exact updateCompletion_discipline lane hs

/-- Settles O57: a dispatch loads a FREE lane with a record whose tiles are IDLE, a completion lands just the tiles of the lane that
it frees, and all other work leaves flights and lanes as they are or finds every lane FREE. -/
theorem flightDisciplineKept : Obligations.FlightDisciplineKept := by
  intro s t hs h
  obtain ⟨rest, stepped⟩ := step_stepped h
  exact stepped.move.discipline hs

end Sys2Proof.Machine
end

section
/-! SUPPORT. A copy from W to T leaves the pixels of every other tile, and no step copies a tile that stays in flight (O59; R102, R115,
R117, R143). -/

namespace Sys2Proof.Machine

/-! ### Copies of tiles -/

/-- A panel in range has tile columns, and no more than a plane's rows hold (R101, R102). -/
theorem tileCols_range {s : State} (h : SettingsInRange s) : 0 < tileCols s ∧ tileCols s * 64 ≤ 4096 := by
  have clamped := (h.2 0 (by decide)).1
  simp only [clampSetting, settingRange, Nat.zero_le, if_true] at clamped
  simp only [tileCols, panelWidth, applied, Config.tileEdge]
  omega

/-- A key of one tile's pixels is no key of another tile's. -/
theorem not_keyIn_tile {cols i k x y : Nat} (columns : 0 < cols) (row : cols * 64 ≤ 4096) (other : k ≠ i)
    (hx : i % cols * 64 ≤ x ∧ x < i % cols * 64 + 64) (hy : i / cols * 64 ≤ y ∧ y < i / cols * 64 + 64) :
    ¬keyIn (tilePixels (k % cols) (k / cols)) (planeKey x y) := by
  rintro ⟨y', hy', hk⟩
  have hi := Nat.mod_lt i columns
  have hc := Nat.mod_lt k columns
  simp only [tilePixels, planeKey] at hy' hk
  have same_col : k % cols = i % cols := by omega
  have same_row : k / cols = i / cols := by omega
  exact other (by rw [← Nat.div_add_mod k cols, ← Nat.div_add_mod i cols, same_col, same_row])

/-- A tile copied to T leaves the pixels of every other tile (R102, R115). -/
theorem copyTilePixels_other {s : State} (range : SettingsInRange s) {i k x y : Nat} (pixel : pixelInTile s i x y)
    (other : k ≠ i) {p : Planes} (wf : PlaneWf p.t) :
    pixelAt (copyTilePixels (tileCols s) k p).t x y = pixelAt p.t x y := by
  obtain ⟨columns, row⟩ := tileCols_range range
  obtain ⟨left, right, top, bottom⟩ := pixel
  rw [copyTilePixels_t]
  exact planeGet_planeCopy_outside _ _ _ _ wf _ (not_keyIn_tile columns row other ⟨left, right⟩ ⟨top, bottom⟩)

/-- Tiles copied to T one after another leave the pixels of every tile that is not among them. -/
theorem copyTiles_other {s : State} (range : SettingsInRange s) {i x y : Nat} (pixel : pixelInTile s i x y) :
    ∀ {l : List Nat} {p : Planes}, i ∉ l → PlaneWf p.t →
      pixelAt (l.foldl (fun q k => copyTilePixels (tileCols s) k q) p).t x y = pixelAt p.t x y
  | [], _, _, _ => rfl
  | k :: l, p, notIn, wf => by
    obtain ⟨other, rest⟩ := not_or.mp (mt List.mem_cons.mpr notIn)
    rw [List.foldl_cons, copyTiles_other range pixel rest (copyTilePixels_wf _ _ _ wf),
      copyTilePixels_other range pixel (Ne.symm other) wf]

/-! ### Steps -/

/-- The pixels of every tile in flight before and after stand still in T (R115). -/
def TargetStands (s t : State) : Prop :=
  ∀ i x y a b, s.sched.tiles[i]? = some a → t.sched.tiles[i]? = some b → inFlight a = true → inFlight b = true →
    pixelInTile s i x y → pixelAt t.planes.t x y = pixelAt s.planes.t x y

theorem targetStands_of_eq {s t : State} (h : t.planes.t = s.planes.t) : TargetStands s t :=
  fun _ _ _ _ _ _ _ _ _ _ => by rw [h]

/-- Where no tile is in flight afterwards, none stays in flight. -/
theorem targetStands_of_landed {s t : State} (h : ∀ a ∈ t.sched.tiles, Landed a) : TargetStands s t := by
  intro i x y a b _ hb _ flying
  have landed : inFlight b = false := congrArg Prod.fst (h b (List.mem_of_getElem? hb))
  rw [landed] at flying
  cases flying

theorem Rests.targetStands {s t : State} (h : Rests s t) : TargetStands s t := by
  rcases h with ⟨-, target⟩ | ⟨-, -, ⟨-, target⟩ | landed⟩
  · exact targetStands_of_eq target
  · exact targetStands_of_eq target
  · exact targetStands_of_landed landed

/-- A latch copies a tile only when it is IDLE (R117). -/
theorem latchTile_targetStands {s : State} (wf : PlanesWf s) (range : SettingsInRange s) : TargetStands s (latchTile s) := by
  unfold latchTile
  split
  · split
    · exact targetStands_of_eq rfl
    · next k _ =>
      split
      · exact targetStands_of_eq (continueLatch_panel ..).target
      · next idle =>
        intro i x y a b ha _ flying _ pixel
        have other : k ≠ i := by
          rintro rfl
          rw [List.getD_eq_getElem?_getD, ha] at idle
          exact idle flying
        rw [(continueLatch_panel ..).target]
        exact copyTilePixels_other range pixel other wf.2.1
  · exact targetStands_of_eq rfl

theorem dispatchScan_targetStands (s : State) : TargetStands s (dispatchScan s) :=
  targetStands_of_eq (congrArg Planes.t (dispatchScan_unpainted s).planes)

/-- A completion copies the stale tiles of its lane, which land (R143). -/
theorem completeLane_targetStands {s : State} (wf : PlanesWf s) (range : SettingsInRange s) (lane : Nat) (d : Drive) :
    TargetStands s (completeLane lane d s) := by
  intro i x y a b ha hb _ flying pixel
  have flight := completeTiles_flight (tileCols s) lane d s.sched.tiles i
  rw [← (completeLane_tables lane d s).1, hb, ha, Option.map_some, Option.map_some, Option.some.injEq, flightOf, flying] at flight
  have stays : i ∉ staleTiles lane s.sched.tiles := by
    intro stale
    obtain ⟨k, t, ht, hs, same⟩ := (mem_tilesWhere _ 0 _ i).mp stale
    rw [Nat.zero_add] at same
    subst same
    rw [ha] at ht
    cases ht
    simp only [Bool.and_eq_true, beq_iff_eq] at hs
    rw [if_pos hs.1] at flight
    cases flight
  exact copyTiles_other range pixel stays wf.2.1

theorem updateCompletion_targetStands {s : State} (wf : PlanesWf s) (range : SettingsInRange s) (lane : Nat) :
    TargetStands s (updateCompletion lane s) := by
  unfold updateCompletion
  split
  · exact targetStands_of_eq rfl
  · next d _ =>
    split
    · exact completeLane_targetStands wf range lane d
    · exact targetStands_of_eq rfl

theorem FlightMove.targetStands {s t : State} (h : FlightMove s t) (wf : PlanesWf s) (range : SettingsInRange s) :
    TargetStands s t := by
  cases h with
  | rests h => exact h.targetStands
  | blank _ tiles => exact targetStands_of_landed (by rw [tiles]; exact fun _ ha => nomatch ha)
  | latches => exact latchTile_targetStands wf range
  | scans => exact dispatchScan_targetStands s
  | completes lane => exact updateCompletion_targetStands wf range lane

/-- Settles O59: T changes only by copies of tiles, and a tile that is copied is IDLE before the step or after it. -/
theorem targetStandsStillInFlight : Obligations.TargetStandsStillInFlight := by
  intro s t i x y a b wf range h
  obtain ⟨rest, stepped⟩ := step_stepped h
  exact stepped.move.targetStands wf range i x y a b

end Sys2Proof.Machine
end

section
/-! SUPPORT. What SET refuses and stores, the ranges it clamps to, and what the boundaries apply (R130, R163, R164, R166, R167). -/

namespace Sys2Proof.Machine

theorem exec_set {s : State} (h : Ready s) (tag : Byte) (id value : Nat) :
    exec (.set tag id value) s = .next (decided tag 0x03#8 (takeSet id value s)) :=
  congrArg Host.Outcome.next (present_ready h tag (.set id value))

/-! ### Refusals, in order (R164) -/

theorem takeSet_unknown {id : Nat} (h : 12 < id) (value : Nat) (s : State) :
    takeSet id value s = (s, .badArgument, .none) := if_pos h

theorem takeSet_badCode {id value : Nat} (hid : id = 3 ∨ id = 7) (hv : 1 < value) (s : State) :
    takeSet id value s = (s, .malformed, .none) := by
  rcases hid with rfl | rfl <;> simp [takeSet, isCoded, hv]

theorem takeSet_notInStandby {id : Nat} {s : State} (hid : id ≤ 2) (hp : s.settings.power ≠ .standby) (value : Nat) :
    takeSet id value s = (s, .notInStandby, .none) := by
  have known : ¬id > 12 := by omega
  have uncoded : isCoded id = false := by simp only [isCoded, Bool.or_eq_false_iff, beq_eq_false_iff_ne]; omega
  simp [takeSet, known, uncoded, (settingClass_standby id).mpr hid, hp]

/-- A write that passes the checks stores the clamped value (R164). -/
theorem takeSet_stored {id value : Nat} {s : State} (hid : id ≤ 12) (code : id = 3 ∨ id = 7 → value ≤ 1)
    (power : id ≤ 2 → s.settings.power = .standby) :
    takeSet id value s
      = ({ s with
            settings := storeSetting id (clampSetting id value) s.settings
            sched := { s.sched with deghostMs := if id = 9 then 0 else s.sched.deghostMs } },
          .ok, .setting id (clampSetting id value) (settingState (storeSetting id (clampSetting id value) s.settings) id)) := by
  have known : ¬id > 12 := by omega
  have coded : ¬(isCoded id && decide (value > 1)) = true := by
    simp only [isCoded, Bool.and_eq_true, Bool.or_eq_true, beq_iff_eq, decide_eq_true_eq, not_and, Nat.not_lt]
    exact code
  have allowed : ¬(settingClass id == .standby && s.settings.power != .standby) = true := by
    simp only [Bool.and_eq_true, beq_iff_eq, settingClass_standby, bne_iff_ne, not_and, not_not]
    exact power
  rw [takeSet, if_neg known, if_neg coded, if_neg allowed]

/-! ### What is stored, and its state (R163, R164) -/

theorem settingClass_live (id : Nat) : settingClass id = .live ↔ 7 ≤ id := by
  unfold settingClass
  split_ifs <;> simp <;> omega

theorem setting_storeSetting_other {id k : Nat} (h : k ≠ id) (v : Nat) (t : Settings) :
    setting (storeSetting id v t) k = setting t k := by
  simp only [setting, storeSetting, List.getD_eq_getElem?_getD, List.getElem?_set_ne (Ne.symm h)]

/-- A LIVE setting takes its value at once (R164). -/
theorem storeSetting_live {id : Nat} (h : 7 ≤ id) (v : Nat) (t : Settings) :
    storeSetting id v t = { t with values := t.values.set id ⟨v, none⟩ } := by
  simp [storeSetting, (settingClass_live id).mpr h]

/-- A setting of another class keeps its applied value, with the written one pending (R164). -/
theorem storeSetting_pending {id : Nat} (h : id ≤ 6) (v : Nat) (t : Settings) :
    storeSetting id v t = { t with values := t.values.set id ⟨(setting t id).applied, some v⟩ } := by
  have bounded : settingClass id ≠ .live := fun hl => by
    have := (settingClass_live id).mp hl
    omega
  simp [storeSetting, bounded]

theorem settingState_live {id : Nat} (h : 7 ≤ id) (v : Nat) (t : Settings) :
    settingState (storeSetting id v t) id = .applied := by
  have none : (setting (storeSetting id v t) id).pending = none := by
    simp only [storeSetting_live h, setting, List.getD_eq_getElem?_getD, List.getElem?_set, if_true]
    split <;> rfl
  rw [settingState, none]

/-- A pending value is HELD when hold keeps its class from applying, and otherwise AWAITING (R163, R167). -/
theorem settingState_pending {id : Nat} (h : id ≤ 6) (v : Nat) {t : Settings} (hl : id < t.values.length) :
    settingState (storeSetting id v t) id = if 3 ≤ id ∧ (setting t 12).applied = 1 then .held else .awaiting := by
  have pending : (setting (storeSetting id v t) id).pending = some v := by
    simp [storeSetting_pending h, setting, List.getD_eq_getElem?_getD, hl]
  have hold : holding (storeSetting id v t) = ((setting t 12).applied == 1) := by
    rw [holding, setting_storeSetting_other (by omega)]
  have bounded : (settingClass id == .jobBoundary || settingClass id == .dispatchBoundary) = decide (3 ≤ id) := by
    rw [Bool.eq_iff_iff]
    unfold settingClass
    split_ifs <;> simp <;> omega
  simp only [settingState, pending, hold, bounded, Bool.and_eq_true, beq_iff_eq, decide_eq_true_eq,
    and_comm (a := (setting t 12).applied = 1)]

/-! ### Ranges (Table 11-1) -/

theorem clampSetting_width (v : Nat) :
    clampSetting 0 v = if v < 640 then 640 else if v > 2560 then 2560 else v - v % 64 := by
  simp only [clampSetting, settingRange, Nat.zero_le, if_true]
  split_ifs <;> omega

theorem clampSetting_height (v : Nat) :
    clampSetting 1 v = if v < 512 then 448 else if v > 1920 then 1920 else v - v % 64 := by
  simp only [clampSetting, settingRange, Nat.le_refl, if_true]
  split_ifs <;> omega

/-- Every other setting is clamped to its range and no more (R164). -/
theorem clampSetting_range {id : Nat} (h : 2 ≤ id) (ordered : (settingRange id).1 ≤ (settingRange id).2) (v : Nat) :
    clampSetting id v
      = if v < (settingRange id).1 then (settingRange id).1 else if v > (settingRange id).2 then (settingRange id).2 else v := by
  have rounded : ¬id ≤ 1 := by omega
  simp only [clampSetting, rounded, if_false]
  split_ifs <;> omega

/-- The ranges that begin at 0. -/
theorem clampSetting_upto {id hi : Nat} (h : 2 ≤ id) (range : settingRange id = (0, hi)) (v : Nat) :
    clampSetting id v = if v > hi then hi else v := by
  rw [clampSetting_range h (by rw [range]; exact Nat.zero_le _), range]
  simp

/-! ### The obligation -/

theorem setting_boundary (c : SettingClass) (t : Settings) (id : Nat) :
    setting (applyBoundary c t) id
      = if (setting t 12).applied ≠ 1 ∧ settingClass id = c then
          ⟨(setting t id).pending.getD (setting t id).applied, none⟩
        else setting t id := by
  rw [setting_applyBoundary]
  simp [holding, applyPending]

/-- Settles O11: the refusals in order, what a write of each class stores and answers, the ranges, and the boundaries. -/
theorem setStoresByClass : Obligations.SetStoresByClass := by
  refine ⟨fun s tag id value hr => ⟨fun hid => ?unknown, fun hid hv => ?code, fun hid hp => ?standby,
      fun hid code power v hv => ?stored⟩,
    clampSetting_width, clampSetting_height, clampSetting_range (by decide) (by decide),
    clampSetting_range (by decide) (by decide), clampSetting_range (by decide) (by decide),
    clampSetting_range (by decide) (by decide), clampSetting_upto (by decide) rfl,
    clampSetting_range (by decide) (by decide), fun id hid v => ?flags, fun c t id _ => setting_boundary c t id,
    fun t id => ?classes⟩
  case unknown =>
    rw [exec_set hr, takeSet_unknown hid]
    rfl
  case code =>
    rw [exec_set hr, takeSet_badCode hid hv]
    rfl
  case standby =>
    rw [exec_set hr, takeSet_notInStandby hid (by rw [hp]; decide)]
    rfl
  case stored =>
    subst hv
    rw [exec_set hr, takeSet_stored hid code power]
    refine ⟨fun live => ?_, fun bounded hl => ?_⟩
    · rw [settingState_live live, storeSetting_live live]
      rfl
    · have interval : id ≠ 9 := by omega
      rw [settingState_pending bounded _ hl, storeSetting_pending bounded, if_neg interval]
      rfl
  case flags =>
    simp only [List.mem_cons, List.not_mem_nil, or_false] at hid
    rcases hid with rfl | rfl | rfl | rfl | rfl <;> exact clampSetting_upto (by decide) rfl v
  case classes =>
    rw [setting_applyClass]
    simp only [settingClass_standby, applyPending]

end Sys2Proof.Machine
end

section
/-! SUPPORT. COMMIT and REFRESH: refusals in order, the clipped rectangle, and what each leaves (R116, R121). -/

namespace Sys2Proof.Machine

/-! ### Requests of a ready part -/

theorem exec_commit {s : State} (h : Ready s) (tag : Byte) (mode cls : Nat) (rect : Option TileRect) :
    exec (.commit tag mode cls rect) s = .next (decided tag 0x40#8 (takeCommit mode cls rect s)) :=
  congrArg Host.Outcome.next (present_ready h tag (.commit mode cls rect))

theorem exec_refresh {s : State} (h : Ready s) (tag : Byte) (mode cls : Nat) (rect : Option TileRect) :
    exec (.refresh tag mode cls rect) s = .next (decided tag 0x41#8 (takeRefresh mode cls rect s)) :=
  congrArg Host.Outcome.next (present_ready h tag (.refresh mode cls rect))

/-! ### Codes and rectangles (R116) -/

theorem modeOfCode_none {n : Nat} : modeOfCode n = none ↔ 2 < n := by
  rcases n with _ | _ | _ | n <;> simp [modeOfCode]

theorem classOfCode_none {n : Nat} : classOfCode n = none ↔ 1 < n := by
  rcases n with _ | _ | n <;> simp [classOfCode]

theorem modeOfCode_modeCode (m : Mode) : modeOfCode (modeCode m) = some m := by cases m <;> rfl
theorem classOfCode_classCode (c : UpdateClass) : classOfCode (classCode c) = some c := by cases c <;> rfl

/-- The codes that name a mode. -/
theorem modeOfCode_some {n : Nat} (h : n ≤ 2) : ∃ m, modeOfCode n = some m :=
  Option.ne_none_iff_exists'.mp (mt modeOfCode_none.mp (Nat.not_lt.mpr h))

/-- The codes that name a class. -/
theorem classOfCode_some {n : Nat} (h : n ≤ 1) : ∃ c, classOfCode n = some c :=
  Option.ne_none_iff_exists'.mp (mt classOfCode_none.mp (Nat.not_lt.mpr h))

theorem badTileRect_iff (s : State) (q : TileRect) :
    badTileRect s q = true ↔ q.col1 < q.col0 ∨ q.row1 < q.row0 ∨ tileCols s ≤ q.col0 ∨ tileRows s ≤ q.row0 := by
  simp [badTileRect]

/-! ### Refusals (R116, R121) -/

theorem take_notActive {s : State} (h : s.settings.power ≠ .active) (mode cls : Nat) (rect : Option TileRect) :
    takeCommit mode cls rect s = (s, .notActive, .none) ∧ takeRefresh mode cls rect s = (s, .notActive, .none) := by
  constructor
  · rw [takeCommit, if_pos (by simpa using h)]
  · rw [takeRefresh, if_pos (by simpa using h)]

section
variable {s : State} (active : s.settings.power = .active)
include active

theorem take_malformed {mode cls : Nat} (h : 2 < mode ∨ 1 < cls) (rect : Option TileRect) :
    takeCommit mode cls rect s = (s, .malformed, .none) ∧ takeRefresh mode cls rect s = (s, .malformed, .none) := by
  have unnamed : modeOfCode mode = none ∨ classOfCode cls = none := h.imp modeOfCode_none.mpr classOfCode_none.mpr
  constructor
  · rw [takeCommit, if_neg (by simp [active])]
    split
    · next hm hc => simp [hm, hc] at unnamed
    · rfl
  · rw [takeRefresh, if_neg (by simp [active])]
    split
    · next hm hc => simp [hm, hc] at unnamed
    · rfl

section
variable {mode cls : Nat} {m : Mode} {c : UpdateClass} (hm : modeOfCode mode = some m) (hc : classOfCode cls = some c)
include hm hc

theorem takeCommit_named (rect : Option TileRect) :
    takeCommit mode cls rect s
      = if rect.any (badTileRect s) then (s, .badArgument, .none)
        else if s.comp.commit != .empty then (s, .busy, .none)
        else
          let r := (rect.map (clipTiles s)).getD (wholeTable s)
          ({ s with comp := { s.comp with commit := .pending ⟨m, c, r⟩ } }, .ok, .tileRect r) := by
  rw [takeCommit, if_neg (by simp [active]), hm, hc]

theorem take_badArgument {rect : Option TileRect} (bad : rect.any (badTileRect s) = true) :
    takeCommit mode cls rect s = (s, .badArgument, .none) ∧ takeRefresh mode cls rect s = (s, .badArgument, .none) :=
  ⟨by rw [takeCommit_named active hm hc, if_pos bad],
    by simp only [takeRefresh, active, bne_self_eq_false, Bool.false_eq_true, if_false, hm, hc, bad, if_true]⟩

/-- A REFRESH over no tile queues nothing (R121). -/
theorem takeRefresh_nothing {rect : Option TileRect} (good : rect.any (badTileRect s) = false)
    (hr : refreshRect rect s = none) : takeRefresh mode cls rect s = (s, .ok, .refreshed none 0) := by
  simp only [takeRefresh, active, bne_self_eq_false, Bool.false_eq_true, if_false, hm, hc, good, hr]

/-- A REFRESH over a rectangle queues an update (R121). -/
theorem takeRefresh_queued {rect : Option TileRect} {r : TileRect} (good : rect.any (badTileRect s) = false)
    (hr : refreshRect rect s = some r) :
    takeRefresh mode cls rect s
      = ({ s with sched := (queueUpdate ⟨r, m, c, .refresh⟩ s.sched).1 }, .ok,
          .refreshed (some r) (queueUpdate ⟨r, m, c, .refresh⟩ s.sched).2) := by
  simp only [takeRefresh, active, bne_self_eq_false, Bool.false_eq_true, if_false, hm, hc, good, hr]

end

end

/-! ### The obligation -/

/-- The rectangle that a commit takes: the given one clipped, or the whole table (R116). -/
theorem commitRect {s : State} {rect : Option TileRect} {r : TileRect}
    (given : ∀ q, rect = some q →
      q.col0 ≤ q.col1 ∧ q.row0 ≤ q.row1 ∧ q.col0 < tileCols s ∧ q.row0 < tileRows s
        ∧ r = ⟨q.col0, min q.col1 (tileCols s - 1), q.row0, min q.row1 (tileRows s - 1)⟩)
    (whole : rect = none → r = ⟨0, tileCols s - 1, 0, tileRows s - 1⟩) :
    rect.any (badTileRect s) = false ∧ (rect.map (clipTiles s)).getD (wholeTable s) = r
      ∧ (rect ≠ none → refreshRect rect s = some r) := by
  cases rect with
  | none => exact ⟨rfl, (whole rfl).symm, fun h => absurd rfl h⟩
  | some q =>
    obtain ⟨cols, rows, left, top, rfl⟩ := given q rfl
    have good : ¬badTileRect s q = true := by rw [badTileRect_iff]; omega
    exact ⟨by simpa using good, rfl, fun _ => rfl⟩

/-- Settles O44: the refusals of COMMIT and REFRESH in order, and the accepted requests by their rectangle. -/
theorem commitAndRefreshAccepted : Obligations.CommitAndRefreshAccepted := by
  refine ⟨fun s tag mode cls rect e refused => ?refused, fun s tag mode cls rect r hr given whole => ?accepted⟩
  case refused =>
    rcases refused with ⟨ready, standby, rfl⟩ | ⟨ready, unnamed, rfl⟩ | ⟨ready, hmode, hcls, rfl, q, rfl, bad⟩
    · obtain ⟨commit, refresh⟩ := take_notActive (s := s) (by rw [standby]; decide) mode cls rect
      rw [exec_commit ready, exec_refresh ready, commit, refresh]
      exact ⟨rfl, rfl⟩
    · obtain ⟨commit, refresh⟩ := take_malformed ready.2 unnamed rect
      rw [exec_commit ready.ready, exec_refresh ready.ready, commit, refresh]
      exact ⟨rfl, rfl⟩
    · obtain ⟨m, hm⟩ := modeOfCode_some hmode
      obtain ⟨c, hc⟩ := classOfCode_some hcls
      obtain ⟨commit, refresh⟩ :=
        take_badArgument ready.2 hm hc (rect := some q) (by simpa using (badTileRect_iff s q).mpr bad)
      rw [exec_commit ready.ready, exec_refresh ready.ready, commit, refresh]
      exact ⟨rfl, rfl⟩
  case accepted =>
    have hm := modeOfCode_modeCode mode
    have hc := classOfCode_classCode cls
    obtain ⟨good, clipped, refreshed⟩ := commitRect given whole
    rw [exec_commit hr.ready, exec_refresh hr.ready]
    refine ⟨fun free => ?_, fun used => ?_, fun some => ?_, fun absent old => ?_, fun b absent bound => ?_⟩
    · rw [takeCommit_named hr.2 hm hc, good, clipped, free]
      rfl
    · rw [takeCommit_named hr.2 hm hc, good, if_neg (by decide), if_pos (by simpa using used)]
      rfl
    · rw [takeRefresh_queued hr.2 hm hc good (refreshed some)]
      rfl
    · have nothing : refreshRect rect s = none := by
        rw [absent, refreshRect, boundTiles_none, tilesWhere_nil]
        exact fun i t ht => old t (List.mem_of_getElem? ht)
      rw [takeRefresh_nothing hr.2 hm hc good nothing]
      rfl
    · have newer : refreshRect rect s = some b := by
        rw [absent, refreshRect, tilesWhere_eq_filter]
        exact bound
      rw [takeRefresh_queued hr.2 hm hc good newer]
      rfl

end Sys2Proof.Machine
end

section
/-! SUPPORT. Queueing an update, by the newest record near it, and what QUEUE_INFO reports (R123, R124, R126, R132). -/

namespace Sys2Proof.Machine

/-! ### Queueing (R123, R124) -/

/-- A neighbour of the same mode and class takes the update (R123). -/
theorem queueUpdate_merged {u : NewUpdate} {c : Scheduler} {before after : List UpdateRec} {q : UpdateRec}
    (queue : c.queue = before ++ q :: after) (near : newestNear u.rect c.queue = some before.length)
    (mode : q.mode = u.mode) (cls : q.cls = u.cls) :
    queueUpdate u c = ({ c with queue := before ++ mergeMatching u q :: after }, q.id) := by
  have found : c.queue.getD before.length UpdateRec.blank = q := by simp [queue]
  have replaced : c.queue.set before.length (mergeMatching u q) = before ++ mergeMatching u q :: after := by simp [queue]
  simp only [queueUpdate, near, found, mode, cls, and_self, if_true, replaced]

/-- A neighbour of another mode or class leaves the update to the queue's end (R123). -/
theorem queueUpdate_unmatched {u : NewUpdate} {c : Scheduler} {before after : List UpdateRec} {q : UpdateRec}
    (queue : c.queue = before ++ q :: after) (near : newestNear u.rect c.queue = some before.length)
    (differs : q.mode ≠ u.mode ∨ q.cls ≠ u.cls) : queueUpdate u c = appendUpdate u c := by
  have found : c.queue.getD before.length UpdateRec.blank = q := by simp [queue]
  have unmatched : ¬(q.mode = u.mode ∧ q.cls = u.cls) := by rwa [not_and_or]
  simp only [queueUpdate, near, found, unmatched, if_false]

/-- Without a neighbour the update goes to the queue's end (R123). -/
theorem queueUpdate_alone {u : NewUpdate} {c : Scheduler} (h : newestNear u.rect c.queue = none) :
    queueUpdate u c = appendUpdate u c := by
  simp only [queueUpdate, h]

theorem appendUpdate_room {u : NewUpdate} {c : Scheduler} (room : c.queue.length < 24) :
    appendUpdate u c
      = ({ c with
            queue := c.queue ++ [⟨c.nextId, u.rect, u.mode, u.cls, u.origin, 1⟩], nextId := nextUpdateId c.nextId },
          c.nextId) := if_pos room

/-- At a full queue the newest record takes the update (R124). -/
theorem appendUpdate_full {u : NewUpdate} {c : Scheduler} {front : List UpdateRec} {n : UpdateRec}
    (queue : c.queue = front ++ [n]) (full : 24 ≤ c.queue.length) :
    appendUpdate u c = ({ c with queue := front ++ [mergeCoarse u n] }, n.id) := by
  have newest : c.queue.getLastD UpdateRec.blank = n := by simp [queue]
  have older : c.queue.dropLast = front := by simp [queue]
  rw [appendUpdate, if_neg (by simpa using full), newest, older]

theorem stronger_clean (a b : Mode) : stronger a b = .clean ↔ a = .clean ∨ b = .clean := by cases a <;> cases b <;> decide
theorem stronger_swift (a b : Mode) : stronger a b = .swift ↔ a = .swift ∧ b = .swift := by cases a <;> cases b <;> decide

/-- A merge is PROMPT when either is (R124). -/
theorem mergeCoarse_prompt (u : NewUpdate) (n : UpdateRec) :
    (mergeCoarse u n).cls = .prompt ↔ n.cls = .prompt ∨ u.cls = .prompt := by
  simp only [mergeCoarse, Bool.or_eq_true, beq_iff_eq]
  split
  · next h => simp [h]
  · next h => simp [h]

/-- Settles O45: the newest record near the update takes it, or it goes to the queue's end or, at a full queue, into the newest. -/
theorem updateIsQueued : Obligations.UpdateIsQueued := by
  intro u c before after q far
  have near : c.queue = before ++ q :: after → tilesOverlap q.rect u.rect = true ∨ tilesAdjoin q.rect u.rect = true →
      newestNear u.rect c.queue = some before.length := fun queue meets => by
    rw [queue]
    exact newestNear_some far meets before
  refine ⟨fun queue meets mode cls => queueUpdate_merged queue (near queue meets) mode cls, fun unmatched => ?_⟩
  have goes : queueUpdate u c = appendUpdate u c := by
    rcases unmatched with alone | ⟨queue, meets, differs⟩
    · exact queueUpdate_alone (by rw [alone]; exact newestNear_none far)
    · exact queueUpdate_unmatched queue (near queue meets) differs
  rw [goes]
  refine ⟨appendUpdate_room, fun front n queue full => ⟨mergeCoarse u n, appendUpdate_full queue full, rfl, rfl, rfl, rfl,
    stronger_clean _ _, stronger_swift _ _, mergeCoarse_prompt u n⟩⟩

/-! ### QUEUE_INFO (R126, R132) -/

theorem exec_queueInfo {s : State} (h : Ready s) (tag : Byte) :
    exec (.queueInfo tag) s = .next (decided tag 0x42#8 (takeQueueInfo s)) :=
  congrArg Host.Outcome.next (present_ready h tag .queueInfo)

/-- A tile that is not in flight is IDLE (Table 0-2). -/
theorem inFlight_false (t : TileRec) : inFlight t = false ↔ t.state = .idle := by
  unfold inFlight
  cases t.state <;> decide

/-- Eligibility in the words of R126. -/
theorem eligible_iff_idle (s : State) (k : Nat) :
    eligible s k = true ↔ ∃ q, s.sched.queue[k]? = some q
      ∧ (∀ n t, s.sched.tiles[n]? = some t → inTileRect q.rect (n % tileCols s) (n / tileCols s) = true → t.state = .idle)
      ∧ ∀ o ∈ s.sched.queue.take k, tilesOverlap o.rect q.rect = false := by
  simp only [eligible_iff, inFlight_false]

/-- The queue as QUEUE_INFO reports it: each record with its eligibility (R132). -/
def reportedQueue (s : State) : List (UpdateRec × Bool) :=
  (List.range s.sched.queue.length).map fun i => (s.sched.queue.getD i UpdateRec.blank, eligible s i)

theorem reportedQueue_getElem? (s : State) (k : Nat) :
    (reportedQueue s)[k]? = (s.sched.queue[k]?).map fun q => (q, eligible s k) := by
  rw [reportedQueue, List.getElem?_map]
  by_cases h : k < s.sched.queue.length
  · simp [h]
  · simp [h]

theorem reportedQueue_records (s : State) : (reportedQueue s).map Prod.fst = s.sched.queue := by
  refine List.ext_getElem? fun k => ?_
  rw [List.getElem?_map, reportedQueue_getElem?, Option.map_map]
  exact Option.map_id'

/-- A reported mark is the record's eligibility (R126). -/
theorem reportedQueue_eligible {s : State} {k : Nat} {q : UpdateRec} {e : Bool} (h : (reportedQueue s)[k]? = some (q, e)) :
    e = true ↔
      (∀ n t, s.sched.tiles[n]? = some t → inTileRect q.rect (n % tileCols s) (n / tileCols s) = true → t.state = .idle)
        ∧ ∀ o ∈ s.sched.queue.take k, tilesOverlap o.rect q.rect = false := by
  rw [reportedQueue_getElem?, Option.map_eq_some_iff] at h
  obtain ⟨q', hq, same⟩ := h
  obtain ⟨rfl, rfl⟩ := Prod.mk.inj same
  rw [eligible_iff_idle, hq]
  simp only [Option.some.injEq, exists_eq_left']

theorem tileCount_eq (s : State) (p : TileRec → Bool) : tileCount s p = (s.sched.tiles.filter p).length :=
  List.countP_eq_length_filter

/-- Settles O46: the reply lists the queue with its eligibility and counts the tiles, and nothing changes. -/
theorem queueInfoReports : Obligations.QueueInfoReports := by
  intro s tag hr
  rw [exec_queueInfo hr]
  refine ⟨_, rfl, reportedQueue_records s, fun k q e => reportedQueue_eligible, rfl,
    List.map_congr_left fun x _ => ?_, rfl, rfl, rfl, rfl, rfl,
    tileCount_eq s _, tileCount_eq s _, tileCount_eq s _, tileCount_eq s _, tileCount_eq s _, tileCount_eq s _⟩
  cases x <;> rfl

end Sys2Proof.Machine
end

section
/-! SUPPORT. LATCH_TILE: the next tile of the latch, what becomes of it, and how the latch goes on or ends (R117, R118). -/

namespace Sys2Proof.Machine

/-! ### The latch's order (R117) -/

theorem nextDirty_eq_none {cols : Nat} {r : TileRect} {next : Nat} {tiles : List TileRec} :
    nextDirty cols r next tiles = none
      ↔ ∀ k t, tiles[k]? = some t → next ≤ k → inTileRect r (k % cols) (k / cols) = true → t.workDirty = false := by
  rw [nextDirty, List.head?_eq_none_iff, tilesWhere_nil]
  simp only [Bool.and_eq_false_imp, Bool.and_eq_true, decide_eq_true_eq, and_imp]

/-- The next tile of a latch: the first from its place on that is in the rectangle and work-dirty. -/
theorem nextDirty_eq_some {cols : Nat} {r : TileRect} {next i : Nat} {tiles : List TileRec} {a : TileRec}
    (ha : tiles[i]? = some a) (from_next : next ≤ i) (dirty : a.workDirty = true)
    (inside : inTileRect r (i % cols) (i / cols) = true)
    (first : ∀ k b, next ≤ k → k < i → tiles[k]? = some b → inTileRect r (k % cols) (k / cols) = true → b.workDirty = false) :
    nextDirty cols r next tiles = some i := by
  rw [nextDirty, tilesWhere_eq_filter, List.head?_filter, List.find?_range_eq_some]
  obtain ⟨lt, -⟩ := List.getElem?_eq_some_iff.mp ha
  refine ⟨by simp [ha, from_next, dirty, inside], List.mem_range.mpr lt, fun k hk => ?_⟩
  have hb : tiles[k]? = some (tiles.getD k TileRec.fresh) := by
    rw [List.getD_eq_getElem _ _ (hk.trans lt), List.getElem?_eq_getElem]
  simp only [Bool.not_eq_true', Bool.and_eq_false_imp, Bool.and_eq_true, decide_eq_true_eq, and_imp]
  exact fun hn hin => first k _ hn hk hb hin

/-- A change of the tile just latched leaves the tiles after it. -/
theorem nextDirty_set_eq_none {cols : Nat} {r : TileRect} {i : Nat} {tiles : List TileRec} (b : TileRec) :
    nextDirty cols r (i + 1) (tiles.set i b) = none
      ↔ ∀ k t, i < k → tiles[k]? = some t → inTileRect r (k % cols) (k / cols) = true → t.workDirty = false := by
  rw [nextDirty_eq_none]
  constructor
  · exact fun h k t hk ht => h k t (by rwa [List.getElem?_set_ne (Nat.ne_of_lt hk)]) hk
  · exact fun h k t ht hk => h k t hk (by rwa [List.getElem?_set_ne (Nat.ne_of_lt hk)] at ht)

/-! ### A tile latched (R117) -/

/-- The state with a tile's record and the planes replaced. -/
def withTile (i : Nat) (b : TileRec) (p : Planes) (s : State) : State :=
  { s with planes := p, sched := { s.sched with tiles := s.sched.tiles.set i b } }

section
variable {s : State} {c : CommitSpec} {next i : Nat} {copied : List Nat} {deferred : Nat} {a : TileRec}
  (latching : s.comp.commit = .latching c next copied deferred)
  (due : nextDirty (tileCols s) c.rect next s.sched.tiles = some i) (ha : s.sched.tiles[i]? = some a)
include latching due ha

/-- An IDLE tile is copied. -/
theorem latchTile_copies (idle : a.state = .idle) :
    latchTile s
      = continueLatch c (i + 1) (copied ++ [i]) deferred
        (withTile i (copiedTile a) (copyTilePixels (tileCols s) i s.planes) s) := by
  have record : s.sched.tiles.getD i TileRec.fresh = a := by rw [List.getD_eq_getElem?_getD, ha]; rfl
  have still : inFlight a = false := (inFlight_false a).mpr idle
  simp only [latchTile, latching, due, record, still, Bool.false_eq_true, if_false, changeTile, withTile]

/-- A tile in flight is deferred. -/
theorem latchTile_defers (flying : a.state ≠ .idle) :
    latchTile s = continueLatch c (i + 1) copied (deferred + 1) (withTile i (deferTile c a) s.planes s) := by
  have record : s.sched.tiles.getD i TileRec.fresh = a := by rw [List.getD_eq_getElem?_getD, ha]; rfl
  have moving : inFlight a = true := by rwa [← Bool.not_eq_false, inFlight_false]
  simp only [latchTile, latching, due, record, moving, if_true, changeTile, withTile]

end

/-! ### The latch goes on or ends (R118) -/

/-- The update that a latch queues at its end, with its id: over the copied tiles, under AUTO. -/
def latchUpdate (c : CommitSpec) (copied : List Nat) (s : State) : Scheduler × Nat :=
  match boundTiles (tileCols s) copied with
  | some r => if policyAuto s then queueUpdate ⟨r, c.mode, c.cls, .commit⟩ s.sched else (s.sched, 0)
  | none => (s.sched, 0)

theorem endLatch_eq (c : CommitSpec) (copied : List Nat) (deferred : Nat) (s : State) :
    endLatch c copied deferred s
      = post (.commitDone c.mode c.cls c.rect copied.length deferred (latchUpdate c copied s).2)
        { s with sched := (latchUpdate c copied s).1, comp := { s.comp with commit := .empty, path := .free } } := rfl

theorem policyAuto_iff (s : State) : policyAuto s = true ↔ applied s 7 = 0 := by simp [policyAuto]

/-- Nothing copied, or without AUTO: no update. -/
theorem latchUpdate_none {c : CommitSpec} {copied : List Nat} {s : State} (h : copied = [] ∨ applied s 7 ≠ 0) :
    latchUpdate c copied s = (s.sched, 0) := by
  unfold latchUpdate
  split
  · next r bound =>
    rcases h with rfl | manual
    · cases bound
    · rw [if_neg (by rwa [policyAuto_iff])]
  · rfl

theorem latchUpdate_queued {c : CommitSpec} {copied : List Nat} {s : State} {r : TileRect}
    (bound : boundTiles (tileCols s) copied = some r) (auto : applied s 7 = 0) :
    latchUpdate c copied s = queueUpdate ⟨r, c.mode, c.cls, .commit⟩ s.sched := by
  rw [latchUpdate, bound]
  exact if_pos ((policyAuto_iff s).mpr auto)

theorem latchUpdate_tiles (c : CommitSpec) (copied : List Nat) (s : State) :
    (latchUpdate c copied s).1.tiles = s.sched.tiles := by
  unfold latchUpdate
  split
  · split
    · exact (queueUpdate_frame _ _).1
    · rfl
  · rfl

theorem continueLatch_goes {c : CommitSpec} {next : Nat} {copied : List Nat} {deferred : Nat} {s : State}
    (h : nextDirty (tileCols s) c.rect next s.sched.tiles ≠ none) :
    continueLatch c next copied deferred s = { s with comp := { s.comp with commit := .latching c next copied deferred } } := by
  obtain ⟨i, hi⟩ := Option.ne_none_iff_exists'.mp h
  simp only [continueLatch, hi]

theorem continueLatch_ends {c : CommitSpec} {next : Nat} {copied : List Nat} {deferred : Nat} {s : State}
    (h : nextDirty (tileCols s) c.rect next s.sched.tiles = none) :
    continueLatch c next copied deferred s = endLatch c copied deferred s := by
  simp only [continueLatch, h]

/-! ### The obligation -/

/-- After a tile the latch goes on while another follows, and otherwise ends with its notice and its update (R118). -/
theorem latch_after_tile {s : State} {c : CommitSpec} {i : Nat} {b : TileRec} {p : Planes} {l : List Nat} {n : Nat}
    (latched : latchTile s = continueLatch c (i + 1) l n (withTile i b p s)) :
    ((∃ (k : Nat) (x : TileRec), i < k ∧ s.sched.tiles[k]? = some x ∧ x.workDirty = true
          ∧ inTileRect c.rect (k % tileCols s) (k / tileCols s) = true) →
        exec .latchTile s
          = .next
            { s with
              planes := p
              sched := { s.sched with tiles := s.sched.tiles.set i b }
              comp := { s.comp with commit := .latching c (i + 1) l n } })
      ∧ ((∀ (k : Nat) (x : TileRec), i < k → s.sched.tiles[k]? = some x →
            inTileRect c.rect (k % tileCols s) (k / tileCols s) = true → x.workDirty = false) →
        ∃ sched id,
          exec .latchTile s
            = .next
              (post (.commitDone c.mode c.cls c.rect l.length n id)
                { s with planes := p, sched := sched, comp := { s.comp with commit := .empty, path := .free } })
          ∧ sched.tiles = s.sched.tiles.set i b
          ∧ ((l = [] ∨ applied s 7 ≠ 0) → id = 0 ∧ sched.queue = s.sched.queue)
          ∧ (∀ r, boundTiles (tileCols s) l = some r → applied s 7 = 0 →
              (sched, id)
                = queueUpdate ⟨r, c.mode, c.cls, .commit⟩ { s.sched with tiles := s.sched.tiles.set i b })) := by
  have follows := nextDirty_set_eq_none (cols := tileCols s) (r := c.rect) (i := i) (tiles := s.sched.tiles) b
  have outcome : exec .latchTile s = .next (latchTile s) := rfl
  rw [outcome, latched]
  refine ⟨fun ⟨k, x, hk, hx, dirty, inside⟩ => ?goes, fun last => ?ends⟩
  case goes =>
    rw [continueLatch_goes]
    · rfl
    · intro none
      rw [follows.mp none k x hk hx inside] at dirty
      cases dirty
  case ends =>
    rw [continueLatch_ends (follows.mpr last), endLatch_eq]
    refine ⟨(latchUpdate c l (withTile i b p s)).1, (latchUpdate c l (withTile i b p s)).2, rfl, latchUpdate_tiles _ _ _,
      fun nothing => ?_, fun r bound auto => latchUpdate_queued (s := withTile i b p s) bound auto⟩
    rw [latchUpdate_none (s := withTile i b p s) nothing]
    exact ⟨rfl, rfl⟩

/-- Settles O47: the tile that is due is copied or deferred, by its state, and the latch goes on or ends. -/
theorem latchActsOnTile : Obligations.LatchActsOnTile := by
  intro s c next i copied deferred a latching from_next ha dirty inside first
  have due := nextDirty_eq_some ha from_next dirty inside first
  by_cases idle : a.state = .idle
  · exact ⟨_, _, _, _, fun _ => ⟨rfl, rfl, rfl, rfl⟩, fun flying => absurd idle flying,
      latch_after_tile (latchTile_copies latching due ha idle)⟩
  · exact ⟨_, _, _, _, fun h => absurd h idle, fun _ => ⟨rfl, rfl, rfl, rfl⟩,
      latch_after_tile (latchTile_defers latching due ha idle)⟩

end Sys2Proof.Machine
end

section
/-! SUPPORT. Panel frame boundaries, lane frames, dispatch scans and expiries (R125 to R127, R129 to R131, R133 to R135, R138, R140). -/

namespace Sys2Proof.Machine

/-! ### Boundaries and lane frames (R134, R135) -/

/-- The frame count rises by one and wraps after 32 bits (R134). -/
theorem frameCount_next (n : Nat) : (n + 1) % 4294967296 = if n = 4294967295 then 0 else (n + 1) % 4294967296 := by
  split
  · next last => rw [last]
  · rfl

theorem panelFrameBoundary_awake {s : State} (h : s.settings.power ≠ .starting) :
    panelFrameBoundary s
      = { s with
          lanes :=
            { s.lanes with
              lanes := s.lanes.lanes.map oweFrame
              frameCount := (s.lanes.frameCount + 1) % 4294967296
              boundaryMs := 0
              scanDue := s.settings.power == .active && !s.pins.driveHold } } :=
  if_pos (by simpa [awake] using h)

theorem laneAt_eq {s : State} {l : Nat} {x : Lane} (h : s.lanes.lanes[l]? = some x) : laneAt s l = x := by
  rw [laneAt, List.getD_eq_getElem?_getD, h]
  rfl

/-- LANE_FRAME takes a frame exactly when one is owed and one is left (R135). -/
theorem laneFrame_driving {s : State} {l : Nat} {d : Drive} (h : s.lanes.lanes[l]? = some (.driving d)) :
    laneFrame l s
      = if 0 < d.framesDue ∧ 0 < d.framesLeft then
          withLane l (.driving { d with framesDue := d.framesDue - 1, framesLeft := d.framesLeft - 1 }) s
        else s := by
  simp only [laneFrame, laneAt_eq h, gt_iff_lt]

/-- Settles O48: the boundary over every lane, and the lane's frame by what it owes. -/
theorem boundariesAndFrames : Obligations.BoundariesAndFrames := by
  refine fun s => ⟨fun starting => ?starting, fun away => ⟨s.lanes.lanes.map oweFrame, ?boundary, List.length_map _,
    fun l => ⟨fun free => ?free, fun d driving => ?driving⟩⟩, fun l d driving => ⟨fun due left => ?taken, fun idle => ?idle⟩⟩
  case starting => exact congrArg Host.Outcome.next (if_neg (by simp [awake, starting]))
  case boundary =>
    refine (congrArg Host.Outcome.next (panelFrameBoundary_awake away)).trans ?_
    have scan : (s.settings.power == .active && !s.pins.driveHold)
        = decide (s.settings.power = .active ∧ s.pins.driveHold = false) := by
      rw [Bool.eq_iff_iff]
      simp
    rw [scan, ← frameCount_next]
  case free => rw [List.getElem?_map, free]; rfl
  case driving => rw [List.getElem?_map, driving]; rfl
  case taken =>
    exact congrArg Host.Outcome.next ((laneFrame_driving driving).trans (if_pos ⟨due, left⟩))
  case idle =>
    exact congrArg Host.Outcome.next ((laneFrame_driving driving).trans (if_neg (by omega)))

/-! ### The record that a scan chooses (R125) -/

theorem chooseRecord_none {s : State} (h : ∀ k, eligible s k = false) : chooseRecord s = none := by
  have nothing : (List.range s.sched.queue.length).filter (eligible s) = [] := by simp [h]
  simp only [chooseRecord, nothing]
  rfl

/-- The first eligible PROMPT record is chosen, and without one the first eligible record. -/
theorem chooseRecord_some {s : State} {k : Nat} {q : UpdateRec} (hq : s.sched.queue[k]? = some q) (he : eligible s k = true)
    (older : ∀ n p, s.sched.queue[n]? = some p → eligible s n = true → n < k → q.cls = .prompt ∧ p.cls = .normal)
    (younger : ∀ n p, s.sched.queue[n]? = some p → eligible s n = true → k < n → q.cls = .normal → p.cls = .normal) :
    chooseRecord s = some k := by
  obtain ⟨lt, -⟩ := List.getElem?_eq_some_iff.mp hq
  have record : ∀ {n p}, s.sched.queue[n]? = some p → s.sched.queue.getD n UpdateRec.blank = p := fun h => by
    rw [List.getD_eq_getElem?_getD, h]
    rfl
  have queued : ∀ {n}, eligible s n = true → ∃ p, s.sched.queue[n]? = some p := fun h =>
    let ⟨p, hp, _⟩ := (eligible_iff s _).mp h
    ⟨p, hp⟩
  unfold chooseRecord
  simp only [List.find?_filter, List.head?_filter]
  cases cls : q.cls with
  | prompt =>
    have first : (List.range s.sched.queue.length).find?
        (fun n => decide (eligible s n = true ∧ ((s.sched.queue.getD n UpdateRec.blank).cls == .prompt) = true)) = some k := by
      refine List.find?_range_eq_some.mpr ⟨by simp only [he, record hq, cls]; rfl, List.mem_range.mpr lt, fun n hn => ?_⟩
      simp only [Bool.not_eq_true', decide_eq_false_iff_not, not_and]
      intro hen
      obtain ⟨p, hp⟩ := queued hen
      rw [record hp, (older n p hp hen hn).2]
      decide
    rw [first]
  | normal =>
    have noPrompt : (List.range s.sched.queue.length).find?
        (fun n => decide (eligible s n = true ∧ ((s.sched.queue.getD n UpdateRec.blank).cls == .prompt) = true)) = none := by
      refine List.find?_eq_none.mpr fun n _ => ?_
      simp only [decide_eq_true_eq, not_and]
      intro hen
      obtain ⟨p, hp⟩ := queued hen
      have normal : p.cls = .normal := by
        rcases Nat.lt_trichotomy n k with hn | rfl | hn
        · exact (older n p hp hen hn).2
        · rw [Option.some.inj (hp.symm.trans hq), cls]
        · exact younger n p hp hen hn cls
      rw [record hp, normal]
      decide
    rw [noPrompt]
    refine List.find?_range_eq_some.mpr ⟨he, List.mem_range.mpr lt, fun n hn => ?_⟩
    rw [Bool.not_eq_true', ← Bool.not_eq_true]
    intro hen
    obtain ⟨p, hp⟩ := queued hen
    have prompt := (older n p hp hen hn).1
    rw [cls] at prompt
    cases prompt

/-! ### A lane visited (R125, R127, R140) -/

/-- A search that reads of a tile only what a change leaves finds the same tiles. -/
theorem tilesWhere_mapFrom {p : Nat → TileRec → Bool} {f : Nat → TileRec → TileRec} (h : ∀ i t, p i (f i t) = p i t) :
    ∀ (n : Nat) (l : List TileRec), tilesWhere p n (mapFrom f n l) = tilesWhere p n l
  | _, [] => rfl
  | n, t :: l => by simp only [mapFrom, tilesWhere, h, tilesWhere_mapFrom h (n + 1) l]

/-- A dispatch leaves what the settling of a mode reads (R127, R140). -/
theorem rectTiles_flyTiles {p : TileRec → Bool}
    (h : ∀ t lane, p { t with state := .flight, lane := some lane, targetNewer := false } = p t) (cols lane : Nat)
    (r r' : TileRect) (tiles : List TileRec) :
    rectTiles cols r p (flyTiles cols lane r' tiles) = rectTiles cols r p tiles := by
  refine tilesWhere_mapFrom (fun i t => ?_) 0 tiles
  split
  · rw [h]
  · rfl

/-- A lane visited while it drives, or with no record eligible, changes nothing. -/
theorem visitLane_idle {s : State} {l : Nat} (h : s.lanes.lanes.getD l .free ≠ .free ∨ chooseRecord s = none) :
    visitLane s l = s := by
  unfold visitLane
  rcases h with busy | none
  · rw [if_neg busy]
  · rw [none]
    exact ite_self s

/-- The lane as a dispatch loads it, by the settled mode and the band (R127, R133, R139, R140). -/
def loadedDrive (q : UpdateRec) (m : Settled) (b : Band) : Drive :=
  { id := q.id, rect := q.rect, requested := q.mode, driven := m.mode, cls := q.cls, origin := q.origin
    merged := q.merged, escalated := m.escalated, degraded := m.degraded, band := b
    frames := frameTable m.mode b, framesLeft := frameTable m.mode b, framesDue := 0 }

/-- A dispatch by its record (R127). -/
theorem dispatch_eq {s : State} {l k : Nat} {q : UpdateRec} (hq : s.sched.queue[k]? = some q) :
    dispatch l k s
      = { s with
          sched :=
            { s.sched with
              queue := s.sched.queue.take k ++ s.sched.queue.drop (k + 1)
              tiles := flyTiles (tileCols s) l q.rect s.sched.tiles }
          lanes :=
            { s.lanes with
              lanes := s.lanes.lanes.set l (.driving (loadedDrive q (settleRecord s q) (bandOf s.lanes.temperature))) } } := by
  have record : s.sched.queue.getD k UpdateRec.blank = q := by rw [List.getD_eq_getElem?_getD, hq]; rfl
  have settled : ∀ u : State, u.sched.tiles = flyTiles (tileCols s) l q.rect s.sched.tiles → u.settings = s.settings →
      u.lanes = s.lanes → settleRecord u q = settleRecord s q := fun u tiles settings lanes => by
    have cols : tileCols u = tileCols s := by simp only [tileCols, panelWidth, applied, settings]
    have limit : applied u 6 = applied s 6 := by simp only [applied, settings]
    simp only [settleRecord, cols, limit, tiles, lanes, rectTiles_flyTiles, implies_true]
  have same := settled
    { s with
      sched :=
        { s.sched with
          queue := s.sched.queue.take k ++ s.sched.queue.drop (k + 1)
          tiles := flyTiles (tileCols s) l q.rect s.sched.tiles } } rfl rfl rfl
  unfold dispatch
  simp only [record, loadLane, loadedDrive, List.eraseIdx_eq_take_drop_succ, same]

/-- A FREE lane visited takes the chosen record. -/
theorem visitLane_takes {s : State} {l k : Nat} (free : s.lanes.lanes.getD l .free = .free) (chosen : chooseRecord s = some k) :
    visitLane s l = dispatch l k s := by
  unfold visitLane
  rw [if_pos free, chosen]

/-! ### The scan (R125) -/

/-- The state as a scan begins it: the pending ghost limit applied, the call taken (R125, R166). -/
def scanBegun (s : State) : State :=
  { s with settings := applyBoundary .dispatchBoundary s.settings, lanes := { s.lanes with scanDue := false } }

/-- The state after a scan has visited the lanes below `n`. -/
def scanned (s : State) (n : Nat) : State := (List.range n).foldl visitLane (scanBegun s)

theorem scanned_succ (s : State) (n : Nat) : scanned s (n + 1) = visitLane (scanned s n) n := by
  rw [scanned, List.range_succ, List.foldl_append]
  rfl

theorem dispatchScan_scanned {s : State} (active : s.settings.power = .active) (due : s.lanes.scanDue = true) :
    dispatchScan s = scanned s 8 := if_pos (by simp [active, due])

/-- What a scan leaves: the geometry, the number of lanes and the temperature. -/
theorem scanned_keeps (s : State) (n : Nat) :
    GeometryKept s (scanned s n) ∧ (scanned s n).lanes.lanes.length = s.lanes.lanes.length
      ∧ (scanned s n).lanes.temperature = s.lanes.temperature := by
  induction n with
  | zero =>
    exact ⟨((applyBoundary_quiet (c := .dispatchBoundary) (by decide) s).trans (quiet_lanes _ _)).geometry, rfl, rfl⟩
  | succ n ih =>
    obtain ⟨geometry, length, temperature⟩ := ih
    rw [scanned_succ]
    refine ⟨geometry.trans (visitLane_quiet _ n).geometry, ?_, ?_⟩
    · rw [← length, visitLane]
      split
      · split
        · exact List.length_set
        · rfl
      · rfl
    · rw [← temperature, visitLane]
      split
      · split <;> rfl
      · rfl

theorem lane_of_getD {lanes : List Lane} {l : Nat} (h : l < lanes.length) (free : lanes.getD l .free = .free) :
    lanes[l]? = some .free := by
  rw [List.getD_eq_getElem _ _ h] at free
  rw [List.getElem?_eq_getElem h, free]

/-- Settles O49: the scan's states lane by lane, each visit by the lane and the record chosen, and eligibility. -/
theorem scanLoadsFreeLane : Obligations.ScanLoadsFreeLane := by
  refine ⟨fun s => ⟨fun off => ?none, fun active due count => ⟨scanned s, rfl, ?scan, fun l hl => ⟨fun idle => ?idle,
    fun k q m b d free hq he older younger hm hb hd => ?loaded⟩⟩⟩, fun s k => eligible_iff_idle s k⟩
  case none =>
    refine congrArg Host.Outcome.next (if_neg ?_)
    simpa [← not_and_or, ← Bool.not_eq_true] using off
  case scan => exact congrArg Host.Outcome.next (dispatchScan_scanned active due)
  case idle =>
    have inRange : l < (scanned s l).lanes.lanes.length := by rw [(scanned_keeps s l).2.1, count]; exact hl
    rw [scanned_succ]
    exact visitLane_idle (idle.imp (mt (lane_of_getD inRange)) chooseRecord_none)
  case loaded =>
    obtain ⟨geometry, -, temperature⟩ := scanned_keeps s l
    have cols : tileCols (scanned s l) = tileCols s := by rw [tileCols, geometry.width, tileCols]
    have lane_free : (scanned s l).lanes.lanes.getD l .free = .free := by rw [List.getD_eq_getElem?_getD, free]; rfl
    subst hm hb hd
    refine ⟨flyTiles (tileCols s) l q.rect (scanned s l).sched.tiles, ?_, (mapFrom_length _ _ _).trans geometry.tiles,
      fun i a ha => ?_⟩
    · rw [scanned_succ, visitLane_takes lane_free (chooseRecord_some hq he older younger), dispatch_eq hq, cols, temperature]
      rfl
    · rw [flyTiles_getElem?, ha, Option.map_some]
      split <;> rfl

/-! ### Expiries (R130, R131, R138) -/

theorem deghostDue_iff (s : State) :
    deghostDue s = true ↔ s.settings.power = .active ∧ applied s 9 ≠ 0 ∧ applied s 9 * 60000 ≤ s.sched.deghostMs := by
  rw [deghostDue, deghostLimitMs, Bool.and_eq_true, Bool.and_eq_true, beq_iff_eq, bne_iff_ne, decide_eq_true_iff, and_assoc]

/-- The scheduler after an expiry's update, before the timer restarts (R131). -/
def deghostUpdate (s : State) : Scheduler :=
  match boundTiles (tileCols s) (tilesWhere (fun _ t => decide (t.inkAge > 0)) 0 s.sched.tiles) with
  | some r => if policyAuto s then (queueUpdate ⟨r, .clean, .normal, .deghost⟩ s.sched).1 else s.sched
  | none => s.sched

theorem deghostExpiry_due {s : State} (h : deghostDue s = true) :
    deghostExpiry s = { s with sched := { deghostUpdate s with deghostMs := 0 } } := by
  rw [deghostExpiry, if_pos h]
  rfl

/-- Without AUTO, or without a worn tile, an expiry queues nothing. -/
theorem deghostUpdate_none {s : State} (h : applied s 7 ≠ 0 ∨ ∀ t ∈ s.sched.tiles, t.inkAge = 0) : deghostUpdate s = s.sched := by
  unfold deghostUpdate
  split
  · next r bound =>
    rcases h with manual | unworn
    · rw [if_neg (by rwa [policyAuto_iff])]
    · have nothing : tilesWhere (fun _ t => decide (t.inkAge > 0)) 0 s.sched.tiles = [] :=
        (tilesWhere_nil _ _).mpr fun i t ht => by simp [unworn t (List.mem_of_getElem? ht)]
      rw [nothing] at bound
      cases bound
  · rfl

theorem deghostUpdate_queued {s : State} {r : TileRect} (auto : applied s 7 = 0)
    (bound : boundTiles (tileCols s) ((List.range s.sched.tiles.length).filter
      (fun i => decide (0 < (s.sched.tiles.getD i TileRec.fresh).inkAge))) = some r) :
    deghostUpdate s = (queueUpdate ⟨r, .clean, .normal, .deghost⟩ s.sched).1 := by
  have worn : boundTiles (tileCols s) (tilesWhere (fun _ t => decide (t.inkAge > 0)) 0 s.sched.tiles) = some r := by
    rw [tilesWhere_eq_filter]
    exact bound
  rw [deghostUpdate, worn]
  exact if_pos ((policyAuto_iff s).mpr auto)

theorem staleDue_iff (s : State) :
    staleDue s = true ↔ s.settings.power ≠ .starting ∧ s.lanes.stale = false ∧ 600000 ≤ s.lanes.staleMs := by
  simp [staleDue, awake, and_assoc]

/-- Settles O52: each expiry by whether its timer is due, and the deghost update by the policy and the worn tiles. -/
theorem timersExpire : Obligations.TimersExpire := by
  refine fun s => ⟨fun early => ?early, fun active on reached => ?deghost, fun fresh => ?fresh, fun up clear reached => ?stale⟩
  case early =>
    refine congrArg Host.Outcome.next (if_neg fun due => ?_)
    obtain ⟨active, on, reached⟩ := (deghostDue_iff s).mp due
    rcases early with h | h | h
    · exact h active
    · exact on h
    · exact absurd reached (Nat.not_le.mpr h)
  case deghost =>
    have expires := deghostExpiry_due ((deghostDue_iff s).mpr ⟨active, on, reached⟩)
    refine ⟨fun nothing => ?_, fun r auto bound => ?_⟩
    · rw [deghostUpdate_none nothing] at expires
      exact congrArg Host.Outcome.next expires
    · rw [deghostUpdate_queued auto bound] at expires
      exact congrArg Host.Outcome.next expires
  case fresh =>
    refine congrArg Host.Outcome.next (if_neg fun due => ?_)
    obtain ⟨up, clear, reached⟩ := (staleDue_iff s).mp due
    rcases fresh with h | h | h
    · exact up h
    · rw [clear] at h
      cases h
    · exact absurd reached (Nat.not_le.mpr h)
  case stale => exact congrArg Host.Outcome.next (if_pos ((staleDue_iff s).mpr ⟨up, clear, reached⟩))

end Sys2Proof.Machine
end

section
/-! SUPPORT. An empty command queue: the three timers, and the next operation of an overlay under way (R104, R130, R134, R138). -/

namespace Sys2Proof.Machine

/-! ### The timers -/

theorem awake_iff (s : State) : awake s = true ↔ s.settings.power ≠ .starting := by simp [awake]

theorem tickStale_eq (s : State) :
    tickStale s
      = if s.settings.power ≠ .starting ∧ s.lanes.staleStopped = false ∧ (s.lanes.stale = true ∨ s.lanes.staleMs < 600000) then
          s.lanes.staleMs + 1
        else s.lanes.staleMs := by
  simp only [tickStale, Bool.and_eq_true, Bool.or_eq_true, awake_iff, Bool.not_eq_true', decide_eq_true_eq, and_assoc]

theorem tickBoundary_eq (s : State) :
    tickBoundary s
      = if s.settings.power ≠ .starting ∧ s.lanes.boundaryMs < applied s 2 then s.lanes.boundaryMs + 1
        else s.lanes.boundaryMs := by
  simp only [tickBoundary, Bool.and_eq_true, awake_iff, decide_eq_true_eq]

theorem tickDeghost_eq (s : State) :
    tickDeghost s
      = if s.settings.power = .active ∧ s.sched.deghostMs < applied s 9 * 60000 then s.sched.deghostMs + 1
        else s.sched.deghostMs := by
  simp only [tickDeghost, Bool.and_eq_true, beq_iff_eq, decide_eq_true_eq]
  rfl

/-! ### The overlay under way (R104) -/

/-- No holder of the raster path has an overlay under way: nothing is drawn. -/
theorem overlayOp_none {s : State} (job : ∀ j i, s.comp.started = some j → j.running = true → j.phase ≠ .overlay i)
    (retint : (∃ j, s.comp.started = some j ∧ j.running = true) ∨ s.comp.path ≠ .retintJob
      ∨ ∀ e ∈ s.comp.retints, ∀ r w, e.run = some r → r.stage ≠ .overlay w) : overlayOp s = s := by
  unfold overlayOp
  split
  · next none =>
    unfold retintOp
    split
    · rfl
    · next e run found =>
      split
      · unfold retintOverlayOp
        split
        · next w stage =>
          unfold runningRetint at found
          split at found
          · next path =>
            obtain ⟨e', he', hrun⟩ := Option.bind_eq_some_iff.mp found
            obtain ⟨r, hr, same⟩ := Option.map_eq_some_iff.mp hrun
            obtain ⟨rfl, rfl⟩ := Prod.mk.inj same
            rcases retint with ⟨j, hj, running⟩ | away | still
            · rw [runningJob_eq hj running] at none
              cases none
            · exact absurd path away
            · exact absurd stage (still e' (List.mem_of_find?_eq_some he') r w hr)
          · cases found
        · rfl
      · rfl
  · next j running =>
    obtain ⟨k, hk, hrun⟩ := Option.bind_eq_some_iff.mp running
    split at hrun
    · next on =>
      cases hrun
      unfold jobOverlayOp
      split
      · next i phase => exact absurd phase (job _ i hk on)
      · rfl
    · cases hrun

/-- A job in its OVERLAY pass has the next operation of its line drawn (R95, R104). -/
theorem overlayOp_job {s : State} {j : Job} {i : Nat} {f : FrameRec} {line : LineRec} {notes : List Note}
    (hj : s.comp.started = some j) (on : j.running = true) (phase : j.phase = .overlay i)
    (hf : s.comp.frames[j.slot]? = some f) (hl : f.lines[i]? = some line) (snapshot : f.snapshot = some notes)
    {x : LineWork × State} (hx : x = drawNextOp f line (j.work.getD (beginOverlayLine f line j.stack notes s)) s) :
    overlayOp s = { x.2 with comp := { s.comp with started := some { j with work := some x.1 } } } := by
  have record : frameAt s.comp j.slot = f := by rw [frameAt, List.getD_eq_getElem?_getD, hf]; rfl
  have taken : ensureSnapshot j s = s := by simp only [ensureSnapshot, record, snapshot, Option.isSome_some, if_true]
  have work : jobLineWork j f line s = j.work.getD (beginOverlayLine f line j.stack notes s) := by
    rw [jobLineWork, snapshot, Option.getD_some]
  have drawn : x.2.comp = s.comp := by
    rw [hx]
    exact (drawNextOp_drawn f line _ s).comp
  simp only [overlayOp, runningJob_eq hj on, jobOverlayOp, phase, taken, record, hl, work, ← hx, withJob, drawn]

/-- A retint job in a line's overlay has the next operation of it drawn (R98, R104). -/
theorem overlayOp_retint {s : State} {before after : List RetintEntry} {slot gen : Nat} {run : RetintRun} {line : LineRec}
    {w : LineWork} (idle : ∀ j, s.comp.started = some j → j.running = false) (path : s.comp.path = .retintJob)
    (h : RetintRunsAmid s.comp before after slot gen run) (hl : run.frame.lines[run.current]? = some line)
    (stage : run.stage = .overlay w) {x : LineWork × State} (hx : x = drawNextOp run.frame line w s) :
    overlayOp s
      = { x.2 with
          comp := { s.comp with retints := before ++ ⟨slot, gen, some { run with stage := .overlay x.1 }⟩ :: after } } := by
  have drawn : Drawn s x.2 := by
    rw [hx]
    exact drawNextOp_drawn run.frame line w s
  rw [overlayOp, runningJob_none idle]
  simp only [h.retintOp path hl, retintOverlayOp, stage, ← hx]
  exact h.withStage drawn _

/-- Settles O2: a millisecond passes, and the overlay under way, of the running job or of the running retint, goes on by one
operation. -/
theorem emptyQueuePassesTime : Obligations.EmptyQueuePassesTime := by
  intro s u hq hu
  have ticked : u = tick s := by
    rw [hu, ← tickStale_eq, ← tickBoundary_eq, ← tickDeghost_eq]
    rfl
  have stepped : step s = .next (overlayOp u) := by
    rw [ticked, step, hq]
    rfl
  have comp : u.comp = s.comp := by rw [ticked, tick_comp]
  rw [stepped, ← comp]
  refine ⟨fun job retint => ?rests, fun j i f line notes hj on phase hf hl snapshot => ?job,
    fun before after slot gen run line w idle path queue waitBefore waitAfter hl stage => ?retint⟩
  case rests => rw [overlayOp_none job retint]
  case job =>
    exact ⟨_, rfl, (drawNextOp_drawn ..).eq, congrArg Host.Outcome.next (overlayOp_job hj on phase hf hl snapshot rfl)⟩
  case retint =>
    exact ⟨_, rfl, (drawNextOp_drawn ..).eq,
      congrArg Host.Outcome.next (overlayOp_retint idle path ⟨queue, waitBefore, waitAfter⟩ hl stage rfl)⟩

end Sys2Proof.Machine
end

section
/-! SUPPORT. What a reset leaves: the defaults of Table 11-1, free lanes, empty tables, and every condition that steps keep (R171). -/

namespace Sys2Proof.Machine

/-! ### The settings after a reset (R163) -/

/-- No setting has a pending value after a reset. -/
theorem setting_reset_pending (cause : ResetCause) (id : Nat) : (setting (Settings.reset cause) id).pending = none := by
  have none_pending : ∀ v ∈ (Settings.reset cause).values, v.pending = none := fun v hv => by
    obtain ⟨_, -, rfl⟩ := List.mem_map.mp hv
    rfl
  rw [setting, List.getD_eq_getElem?_getD]
  cases hv : (Settings.reset cause).values[id]? with
  | none => rfl
  | some v => exact none_pending v (List.mem_of_getElem? hv)

/-- The defaults of Table 11-1 are values that a write can store. -/
theorem reset_settingsInRange : SettingsInRange State.reset := by
  have defaults : ∀ id < 13, clampSetting id (setting (Settings.reset .pin) id).applied = (setting (Settings.reset .pin) id).applied := by
    decide
  refine ⟨rfl, fun id hid => ⟨defaults id (by omega), fun v hv => ?_, fun _ => setting_reset_pending .pin id⟩⟩
  rw [show (setting State.reset.settings id).pending = none from setting_reset_pending .pin id] at hv
  cases hv

/-! ### The conditions that steps keep -/

/-- A delivered part is as a reset of it leaves it. -/
theorem reset_eq : State.reset = resetPart .pin State.reset := rfl

theorem reset_planesWf : PlanesWf State.reset := ⟨⟨.nil, nofun⟩, ⟨.nil, nofun⟩, ⟨.nil, nofun⟩⟩

theorem reset_pathDiscipline : PathDiscipline State.reset := (pathDiscipline_iff _).mpr rfl

theorem reset_flightDiscipline : FlightDiscipline State.reset :=
  flightDiscipline_of_landed rfl (fun _ hx => List.eq_of_mem_replicate (n := 8) hx) nofun

theorem reset_levelsWf : LevelsWf State.reset := (levelsWf_iff _).mpr ⟨⟨nofun, nofun, nofun⟩, nofun⟩

/-- The banks of a delivered part are empty (R23). -/
theorem nvFont_delivered (i : Nat) : nvFont (FontStore.reset NvStore.delivered) i = none := by
  simp only [nvFont, FontStore.reset, NvStore.delivered, List.getD_eq_getElem?_getD, List.getElem?_replicate]
  split <;> rfl

theorem reset_storeWf : StoreWf State.reset := by
  have unscanned : StoreUnscanned State.reset.store := ⟨rfl, rfl, rfl, rfl, fun i f hf => by
    rw [show nvFont State.reset.store i = none from nvFont_delivered i] at hf
    cases hf⟩
  exact unscanned.storeWf rfl

/-! ### The obligation -/

/-- Settles O60: the values after a reset block by block, and each condition by the lemma that a reset establishes it. -/
theorem resetLeavesDefaults : Obligations.ResetLeavesDefaults := by
  refine ⟨?values, ?bounded, reset_planesWf, reset_pathDiscipline, reset_flightDiscipline, reset_settingsInRange,
    reset_levelsWf, ?notes, ?port, ?tiles, ?records, reset_storeWf⟩
  case values =>
    rintro cause nv pins pending _ rfl
    exact ⟨rfl, rfl, rfl, setting_reset_pending cause, rfl, rfl, rfl, rfl, rfl, rfl, rfl, rfl, rfl, rfl, rfl, rfl, rfl, rfl,
      rfl, rfl, rfl, rfl, rfl, rfl, rfl, rfl, rfl⟩
  all_goals rw [reset_eq]
  case bounded => exact resetPart_bounded _ _
  case notes => exact resetPart_notesWf _ _
  case port => exact resetPart_portWf _ _
  case tiles => exact resetPart_tilesWf _ _
  case records => exact resetPart_recordsWf _ _

end Sys2Proof.Machine
end

section
/-! SUPPORT. The temperature's report and bands, and the mode settled for a record at its dispatch (R136, R137, R139, R140). -/

namespace Sys2Proof.Machine

/-! ### Temperature (R136, R137) -/

theorem exec_setTemperature {s : State} (h : Ready s) (tag : Byte) (degrees : Int) :
    exec (.setTemperature tag degrees) s = .next (decided tag 0x07#8 (takeSetTemperature degrees s)) :=
  congrArg Host.Outcome.next (present_ready h tag (.setTemperature degrees))

/-- Each band by its range of temperatures (R137). -/
theorem bandOf_iff (t : Nat) :
    (bandOf t = .b0 ↔ t ≤ 4) ∧ (bandOf t = .b1 ↔ 5 ≤ t ∧ t ≤ 14) ∧ (bandOf t = .b2 ↔ 15 ≤ t ∧ t ≤ 24)
      ∧ (bandOf t = .b3 ↔ 25 ≤ t ∧ t ≤ 34) ∧ (bandOf t = .b4 ↔ 35 ≤ t) := by
  unfold bandOf
  split_ifs <;> simp only [false_iff, true_iff] <;> omega

/-- Settles O15: the reply to a report is decided at once, and its bands are the ranges of `bandOf`. -/
theorem temperatureIsReported : Obligations.TemperatureIsReported := by
  refine ⟨fun s tag degrees ready => ⟨(max 0 (min degrees 50)).toNat, by omega, by omega, by omega, ?_⟩,
    fun t _ => bandOf_iff t, rfl, rfl⟩
  rw [exec_setTemperature ready, decided_eq]
  rfl

/-! ### Modes (R139, R140) -/

/-- The tiles of a rectangle that satisfy a condition, none or some. -/
theorem rectTiles_not_isEmpty (cols : Nat) (r : TileRect) (p : TileRec → Bool) (tiles : List TileRec) :
    (!(rectTiles cols r p tiles).isEmpty) = true
      ↔ ∃ i t, tiles[i]? = some t ∧ p t = true ∧ inTileRect r (i % cols) (i / cols) = true := by
  rw [Bool.not_eq_true', List.isEmpty_eq_false_iff, ne_eq, rectTiles, tilesWhere_nil]
  simp only [not_forall, Bool.not_eq_false, Bool.and_eq_true, and_comm, exists_prop]

/-- A record's mode is settled by whether its rectangle holds a tile of unknown glass and a worn one. -/
theorem settleRecord_eq {s : State} {q : UpdateRec} {unknown worn : Bool}
    (hu : unknown = true ↔ ∃ (i : Nat) (t : TileRec), s.sched.tiles[i]? = some t ∧ t.glassKnown = false
      ∧ inTileRect q.rect (i % tileCols s) (i / tileCols s) = true)
    (hw : worn = true ↔ ∃ (i : Nat) (t : TileRec), s.sched.tiles[i]? = some t ∧ applied s 6 ≤ t.inkAge
      ∧ inTileRect q.rect (i % tileCols s) (i / tileCols s) = true) :
    settleRecord s q = settleMode q.mode q.cls unknown worn s.lanes.stale := by
  unfold settleRecord
  congr 1
  · rw [Bool.eq_iff_iff, rectTiles_not_isEmpty, hu]
    simp only [Bool.not_eq_true']
  · rw [Bool.eq_iff_iff, rectTiles_not_isEmpty, hw]
    simp only [ge_iff_le, decide_eq_true_eq]

/-- A record that asks for CLEAN is driven CLEAN. -/
theorem settleMode_clean (cls : UpdateClass) (unknown worn stale : Bool) :
    settleMode .clean cls unknown worn stale = ⟨.clean, false, false⟩ := by
  simp [settleMode]

/-- Unknown glass raises every other mode to CLEAN (R140 step 1). -/
theorem settleMode_unknown {mode : Mode} (h : mode ≠ .clean) (cls : UpdateClass) (worn stale : Bool) :
    settleMode mode cls true worn stale = ⟨.clean, true, false⟩ := by
  simp [settleMode, h]

/-- A worn tile raises a NORMAL record to CLEAN (R140 step 2). -/
theorem settleMode_worn {mode : Mode} (h : mode ≠ .clean) (unknown stale : Bool) :
    settleMode mode .normal unknown true stale = ⟨.clean, true, false⟩ := by
  simp [settleMode, h]

/-- Without either, a stale temperature takes SWIFT down to TEXT and all else stays (R140 step 3). -/
theorem settleMode_kept {worn : Bool} {cls : UpdateClass} (h : worn = false ∨ cls = .prompt) (mode : Mode) (stale : Bool) :
    settleMode mode cls false worn stale
      = if stale = true ∧ mode = .swift then ⟨.text, false, true⟩ else ⟨mode, false, false⟩ := by
  have unraised : (worn && cls == .normal) = false := by
    rcases h with rfl | rfl
    · rfl
    · exact Bool.and_false worn
  simp [settleMode, unraised]

/-- Settles O50: the settling step by step, and the frame table read off. -/
theorem modeIsSettledWithItsFrames : Obligations.ModeIsSettledWithItsFrames := by
  refine ⟨fun s q unknown worn hu hw => ?_, rfl, rfl, rfl⟩
  rw [settleRecord_eq hu hw]
  refine ⟨fun clean => ?clean, fun other glass => ?unknown, fun other _ wear normal => ?worn, fun glass spared => ?kept⟩
  case clean => rw [clean, settleMode_clean]
  case unknown => rw [glass, settleMode_unknown other]
  case worn => rw [wear, normal, settleMode_worn other]
  case kept =>
    rw [glass, settleMode_kept spared]
    refine ⟨fun swift old => ?_, fun swift fresh => ?_, fun text => ?_⟩
    · rw [if_pos ⟨old, swift⟩]
    · rw [fresh, swift, if_neg (by decide)]
    · rw [text, if_neg (by simp)]

end Sys2Proof.Machine
end

section
/-! SUPPORT. UPDATE_COMPLETION: what lands with a lane in T, in G and in the tile table, and the FOLLOW_UP and the REFINE that are
queued after it (R115, R135, R141 to R146). -/

namespace Sys2Proof.Machine

/-! ### Copies pixel by pixel -/

/-- A key lies in a rectangle within a plane's columns exactly when its pixel does. -/
theorem keyIn_planeKey {r : PRect} (fits : r.x + r.w ≤ 4096) {x y : Nat} (hx : x < 4096) :
    keyIn r (planeKey x y) ↔ r.x ≤ x ∧ x < r.x + r.w ∧ r.y ≤ y ∧ y < r.y + r.h := by
  unfold keyIn planeKey
  constructor
  · rintro ⟨y', rows, low, high⟩
    obtain rfl : y' = y := by omega
    omega
  · rintro ⟨left, right, rows⟩
    exact ⟨y, rows, by omega, by omega⟩

/-- A copy pixel by pixel. -/
theorem pixelAt_planeCopy {r : PRect} (fits : r.x + r.w ≤ 4096) (f : Nat → Nat) (src : Plane) {dst : Plane} (wf : PlaneWf dst)
    {x : Nat} (y : Nat) (hx : x < 4096) :
    pixelAt (planeCopy r f src dst) x y
      = if r.x ≤ x ∧ x < r.x + r.w ∧ r.y ≤ y ∧ y < r.y + r.h then f (pixelAt src x y) else pixelAt dst x y := by
  have key := keyIn_planeKey fits (y := y) hx
  split
  · next inside => exact planeGet_planeCopy_inside _ _ _ _ wf _ (key.mpr inside)
  · next outside => exact planeGet_planeCopy_outside _ _ _ _ wf _ (mt key.mp outside)

/-- A tile copied to T, pixel by pixel (R102, R115). -/
theorem pixelAt_copyTilePixels {cols : Nat} (columns : 0 < cols) (fits : cols ≤ 64) (i : Nat) {p : Planes} (wf : PlaneWf p.t)
    {x : Nat} (y : Nat) (hx : x < 4096) :
    pixelAt (copyTilePixels cols i p).t x y
      = if i % cols = x / 64 ∧ i / cols = y / 64 then pixelAt p.w x y else pixelAt p.t x y := by
  have column := Nat.mod_lt i columns
  rw [copyTilePixels_t, pixelAt_planeCopy (by simp only [tilePixels]; omega) id p.w wf y hx]
  refine if_congr ?_ rfl rfl
  simp only [tilePixels]
  omega

/-- Tiles copied to T one after another. -/
def copyTiles (cols : Nat) (l : List Nat) (p : Planes) : Planes := l.foldl (fun q i => copyTilePixels cols i q) p

theorem copyTiles_cons (cols i : Nat) (l : List Nat) (p : Planes) :
    copyTiles cols (i :: l) p = copyTiles cols l (copyTilePixels cols i p) := by
  rw [copyTiles, List.foldl_cons, ← copyTiles]

@[simp] theorem copyTiles_w (cols : Nat) (l : List Nat) (p : Planes) : (copyTiles cols l p).w = p.w := by
  induction l generalizing p with
  | nil => rfl
  | cons i l ih => rw [copyTiles_cons, ih, copyTilePixels_w]

@[simp] theorem copyTiles_g (cols : Nat) (l : List Nat) (p : Planes) : (copyTiles cols l p).g = p.g := by
  induction l generalizing p with
  | nil => rfl
  | cons i l ih => rw [copyTiles_cons, ih, copyTilePixels_g]

theorem copyTiles_wf (cols : Nat) (l : List Nat) {p : Planes} (wf : PlaneWf p.t) : PlaneWf (copyTiles cols l p).t := by
  induction l generalizing p with
  | nil => exact wf
  | cons i l ih =>
    rw [copyTiles_cons]
    exact ih (copyTilePixels_wf _ _ _ wf)

/-- A pixel of a copied tile reads in T as in W, every other pixel of T as before. -/
theorem pixelAt_copyTiles {cols : Nat} (columns : 0 < cols) (fits : cols ≤ 64) (l : List Nat) {p : Planes} (wf : PlaneWf p.t)
    {x : Nat} (y : Nat) (hx : x < 4096) :
    ((∃ i ∈ l, i % cols = x / 64 ∧ i / cols = y / 64) → pixelAt (copyTiles cols l p).t x y = pixelAt p.w x y)
      ∧ ((∀ i ∈ l, ¬(i % cols = x / 64 ∧ i / cols = y / 64)) → pixelAt (copyTiles cols l p).t x y = pixelAt p.t x y) := by
  induction l generalizing p with
  | nil => exact ⟨fun ⟨_, hi, _⟩ => absurd hi List.not_mem_nil, fun _ => rfl⟩
  | cons i l ih =>
    obtain ⟨copied, kept⟩ := ih (copyTilePixels_wf cols i p wf)
    rw [copyTilePixels_w] at copied
    rw [pixelAt_copyTilePixels columns fits i wf y hx] at kept
    simp only [List.exists_mem_cons_iff, List.forall_mem_cons, copyTiles_cons]
    refine ⟨fun among => ?_, fun ⟨other, others⟩ => (kept others).trans (if_neg other)⟩
    by_cases later : ∃ k ∈ l, k % cols = x / 64 ∧ k / cols = y / 64
    · exact copied later
    · rw [kept fun k hk h => later ⟨k, hk, h⟩, if_pos (among.resolve_right later)]

/-! ### Tiles of a plane -/

/-- A listed pixel reads as its entry. -/
theorem planeGet_of_mem {p : Plane} (rising : p.Pairwise fun a b => a.1 < b.1) {e : Nat × Nat} (he : e ∈ p) :
    planeGet p e.1 = e.2 := by
  induction p with
  | nil => cases he
  | cons a p ih =>
    obtain ⟨first, rest⟩ := List.pairwise_cons.mp rising
    rcases List.mem_cons.mp he with rfl | he
    · exact if_pos rfl
    · rw [planeGet, if_neg (Nat.ne_of_lt (first e he))]
      exact ih rest he

/-- A key that does not read as 15 is listed. -/
theorem mem_of_planeGet {p : Plane} {j : Nat} (h : planeGet p j ≠ 15) : (j, planeGet p j) ∈ p := by
  induction p with
  | nil => exact absurd rfl h
  | cons a p ih =>
    obtain ⟨k, l⟩ := a
    rw [planeGet] at h ⊢
    split at h
    · next same => rw [if_pos same, same]; exact List.mem_cons_self
    · next other => rw [if_neg other]; exact List.mem_cons_of_mem _ (ih h)

/-- A tile holds a mid-tone exactly when one of its pixels is neither at 0 nor at 15 (R145). -/
theorem tileHasMidTone_iff {p : Plane} (wf : PlaneWf p) (cols i : Nat) :
    tileHasMidTone p cols i = true
      ↔ ∃ x y, x < 4096 ∧ x / 64 = i % cols ∧ y / 64 = i / cols ∧ pixelAt p x y ≠ 0 ∧ pixelAt p x y ≠ 15 := by
  simp only [tileHasMidTone, List.any_eq_true, Bool.and_eq_true, bne_iff_ne, beq_iff_eq]
  constructor
  · rintro ⟨e, he, ⟨⟨dark, light⟩, column⟩, row⟩
    have level : pixelAt p (e.1 % 4096) (e.1 / 4096) = e.2 := by
      rw [pixelAt, planeKey, Nat.div_add_mod', planeGet_of_mem wf.1 he]
    exact ⟨_, _, Nat.mod_lt _ (by decide), column, row, level ▸ dark, level ▸ light⟩
  · rintro ⟨x, y, hx, column, row, dark, light⟩
    refine ⟨_, mem_of_planeGet light, ⟨⟨dark, light⟩, ?_⟩, ?_⟩ <;> simp only [planeKey] <;> omega

/-! ### The lane's stale tiles and the tile table (R142, R143) -/

theorem mem_staleTiles {l i : Nat} {tiles : List TileRec} :
    i ∈ staleTiles l tiles ↔ ∃ a, tiles[i]? = some a ∧ a.lane = some l ∧ a.state = .flightStale := by
  simp [staleTiles, mem_tilesWhere]

/-- The lane's stale set, as a filter of the tile table's indices. -/
theorem staleTiles_eq_filter {l : Nat} {tiles : List TileRec} {stale : Nat → Bool}
    (h : ∀ i, stale i = true ↔ ∃ a, tiles[i]? = some a ∧ a.lane = some l ∧ a.state = .flightStale) :
    staleTiles l tiles = (List.range tiles.length).filter stale := by
  simp only [← mem_staleTiles, staleTiles, tilesWhere_eq_filter] at h ⊢
  refine List.filter_congr fun i hi => ?_
  rw [Bool.eq_iff_iff, h, List.mem_filter, and_iff_right hi]

/-- The record of tile `i` with the wear of a drive, when the tile lies in its rectangle (R142). -/
def wornTile (cols : Nat) (d : Drive) (i : Nat) (a : TileRec) : TileRec :=
  if inTileRect d.rect (i % cols) (i / cols) then wearTile d.driven a else a

/-- Wear changes the ink age and glass-known alone. -/
theorem wearTile_frame (m : Mode) (a : TileRec) :
    wearTile m a = { a with inkAge := (wearTile m a).inkAge, glassKnown := (wearTile m a).glassKnown } := by
  cases m <;> rfl

theorem wornTile_frame (cols : Nat) (d : Drive) (i : Nat) (a : TileRec) :
    wornTile cols d i a
      = { a with inkAge := (wornTile cols d i a).inkAge, glassKnown := (wornTile cols d i a).glassKnown } := by
  unfold wornTile
  split
  · exact wearTile_frame _ _
  · rfl

theorem wornTile_state (cols : Nat) (d : Drive) (i : Nat) (a : TileRec) : (wornTile cols d i a).state = a.state := by
  rw [wornTile_frame]

/-- The wear of a tile by the mode driven, over the rectangle alone (R142). -/
theorem wornTile_spec (cols : Nat) (d : Drive) (i : Nat) (a : TileRec) :
    (inTileRect d.rect (i % cols) (i / cols) = false →
        (wornTile cols d i a).inkAge = a.inkAge ∧ (wornTile cols d i a).glassKnown = a.glassKnown)
      ∧ (inTileRect d.rect (i % cols) (i / cols) = true →
        (d.driven = .clean → (wornTile cols d i a).inkAge = 0 ∧ (wornTile cols d i a).glassKnown = true)
        ∧ (d.driven = .text →
          (wornTile cols d i a).inkAge = min (a.inkAge + 1) 255 ∧ (wornTile cols d i a).glassKnown = a.glassKnown)
        ∧ (d.driven = .swift →
          (wornTile cols d i a).inkAge = min (a.inkAge + 2) 255 ∧ (wornTile cols d i a).glassKnown = a.glassKnown)) := by
  unfold wornTile
  refine ⟨fun outside => ?_, fun inside => ⟨fun mode => ?_, fun mode => ?_, fun mode => ?_⟩⟩
  · rw [outside]
    exact ⟨rfl, rfl⟩
  all_goals
    rw [if_pos inside, mode]
    exact ⟨rfl, rfl⟩

/-- A tile that lands is IDLE with no lane, and keeps its wear. -/
theorem landTile_frame (a : TileRec) :
    (landTile a).state = .idle ∧ (landTile a).lane = none ∧ (landTile a).inkAge = a.inkAge
      ∧ (landTile a).glassKnown = a.glassKnown := by
  unfold landTile
  split <;> exact ⟨rfl, rfl, rfl, rfl⟩

/-- A FLIGHT_STALE tile that lands is copied and loses what was deferred (R143). -/
theorem landTile_stale {a : TileRec} (h : a.state = .flightStale) :
    (landTile a).workDirty = false ∧ (landTile a).targetNewer = true ∧ (landTile a).deferredMode = none
      ∧ (landTile a).deferredPrompt = false := by
  simp only [landTile, h, copiedTile, and_self]

/-- Any other tile that lands keeps its marks. -/
theorem landTile_unchanged {a : TileRec} (h : a.state ≠ .flightStale) :
    (landTile a).workDirty = a.workDirty ∧ (landTile a).targetNewer = a.targetNewer := by
  unfold landTile
  split
  · next stale => exact absurd stale h
  · exact ⟨rfl, rfl⟩

/-- The record of tile `i` after the completion of lane `l` (R142, R143). -/
def landedTile (cols l : Nat) (d : Drive) (i : Nat) (a : TileRec) : TileRec :=
  if a.lane = some l then landTile (wornTile cols d i a) else wornTile cols d i a

theorem landedTile_own {l : Nat} {a : TileRec} (own : a.lane = some l) {cols : Nat} {d : Drive} {i : Nat} :
    landedTile cols l d i a = landTile (wornTile cols d i a) := if_pos own

theorem landedTile_other {l : Nat} {a : TileRec} (other : a.lane ≠ some l) {cols : Nat} {d : Drive} {i : Nat} :
    landedTile cols l d i a = wornTile cols d i a := if_neg other

/-- Landing leaves a tile's wear. -/
theorem landedTile_wear (cols l : Nat) (d : Drive) (i : Nat) (a : TileRec) :
    (landedTile cols l d i a).inkAge = (wornTile cols d i a).inkAge
      ∧ (landedTile cols l d i a).glassKnown = (wornTile cols d i a).glassKnown := by
  obtain ⟨-, -, ink, glass⟩ := landTile_frame (wornTile cols d i a)
  unfold landedTile
  split
  · exact ⟨ink, glass⟩
  · exact ⟨rfl, rfl⟩

theorem completeTiles_getElem? (cols l : Nat) (d : Drive) (tiles : List TileRec) (i : Nat) :
    (completeTiles cols l d tiles)[i]? = (tiles[i]?).map (landedTile cols l d i) := by
  rw [completeTiles, mapFrom_getElem?, Nat.zero_add]
  rfl

/-! ### The strongest deferred mode (R114, R144) -/

/-- The place of a mode in the order SWIFT < TEXT < CLEAN (R114). -/
def modeRank : Mode → Nat
  | .swift => 0
  | .text => 1
  | .clean => 2

theorem stronger_eq_right_iff (a b : Mode) : stronger a b = b ↔ modeRank a ≤ modeRank b := by
  cases a <;> cases b <;> decide

theorem stronger_eq_ite (a b : Mode) : stronger a b = if modeRank a ≤ modeRank b then b else a := by
  cases a <;> cases b <;> rfl

theorem strongestOf_none {l : List (Option Mode)} (h : ∀ k, some k ∉ l) : strongestOf l = none := by
  induction l with
  | nil => rfl
  | cons o l ih =>
    cases o with
    | none => exact ih fun k hk => h k (List.mem_cons_of_mem _ hk)
    | some a => exact absurd List.mem_cons_self (h a)

/-- The strongest of a list with a mode in it is one of its modes, and no mode of the list is stronger. -/
theorem strongestOf_of_mem {l : List (Option Mode)} {n : Mode} (h : some n ∈ l) :
    ∃ m, strongestOf l = some m ∧ some m ∈ l ∧ ∀ k, some k ∈ l → modeRank k ≤ modeRank m := by
  induction l generalizing n with
  | nil => cases h
  | cons o l ih =>
    simp only [List.mem_cons] at h ⊢
    cases o with
    | none =>
      obtain ⟨m, strongest, among, above⟩ := ih (h.resolve_left nofun)
      exact ⟨m, strongest, .inr among, fun k hk => above k (hk.resolve_left nofun)⟩
    | some a =>
      simp only [Option.some.injEq]
      by_cases more : ∃ k, some k ∈ l
      · obtain ⟨k, hk⟩ := more
        obtain ⟨m, strongest, among, above⟩ := ih hk
        refine ⟨stronger m a, by rw [strongestOf, strongest]; rfl, ?_⟩
        rw [stronger_eq_ite]
        split
        · next weaker =>
          exact ⟨.inl rfl, fun k hk => hk.elim (fun e => e ▸ Nat.le_refl _) fun hk => (above k hk).trans weaker⟩
        · next weaker =>
          exact ⟨.inr among, fun k hk => hk.elim (fun e => e ▸ Nat.le_of_not_le weaker) (above k)⟩
      · have unmoded : strongestOf l = none := strongestOf_none fun k hk => more ⟨k, hk⟩
        exact ⟨a, by rw [strongestOf, unmoded]; rfl, .inl rfl,
          fun k hk => hk.elim (fun e => e ▸ Nat.le_refl _) fun hk => absurd ⟨k, hk⟩ more⟩

/-! ### FOLLOW_UP and REFINE (R144, R145) -/

/-- The records of the stale set are those of its tiles. -/
theorem mem_tileRecs_staleTiles {l : Nat} {tiles : List TileRec} {a : TileRec} :
    a ∈ tileRecs tiles (staleTiles l tiles) ↔ ∃ i, i ∈ staleTiles l tiles ∧ tiles[i]? = some a := by
  rw [tileRecs, List.mem_map]
  refine exists_congr fun i => and_congr_right fun hi => ?_
  obtain ⟨b, hb, -⟩ := mem_staleTiles.mp hi
  rw [List.getD_eq_getElem?_getD, hb, Option.getD_some, Option.some.injEq]

/-- A property of some record of the stale set, by its tile. -/
theorem exists_staleTile {l : Nat} {tiles : List TileRec} {stale : Nat → Bool}
    (member : ∀ i, i ∈ staleTiles l tiles ↔ stale i = true) (p : TileRec → Prop) :
    (∃ a ∈ tileRecs tiles (staleTiles l tiles), p a) ↔ ∃ i a, stale i = true ∧ tiles[i]? = some a ∧ p a := by
  simp only [mem_tileRecs_staleTiles, member]
  exact ⟨fun ⟨a, ⟨i, hi, ha⟩, hp⟩ => ⟨i, a, hi, ha, hp⟩, fun ⟨i, a, hi, ha, hp⟩ => ⟨a, ⟨i, hi, ha⟩, hp⟩⟩

/-- Without AUTO, or without a stale tile, no FOLLOW_UP. -/
theorem followUp_none {s : State} {before : List TileRec} {stale : List Nat} (h : applied s 7 ≠ 0 ∨ stale = []) :
    followUp s before stale = (s.sched, 0) := by
  unfold followUp
  split
  · rfl
  · next r bound =>
    rcases h with manual | rfl
    · rw [if_neg (by rwa [policyAuto_iff])]
    · cases bound

/-- Under AUTO the stale tiles are queued in the strongest of their deferred modes, PROMPT when one was deferred so. -/
theorem followUp_queued {s : State} {before : List TileRec} {l : Nat} {r : TileRect} {stale : Nat → Bool}
    (auto : applied s 7 = 0) (bound : boundTiles (tileCols s) (staleTiles l before) = some r)
    (member : ∀ i, i ∈ staleTiles l before ↔ stale i = true) :
    ∃ (m : Mode) (c : UpdateClass), followUp s before (staleTiles l before) = queueUpdate ⟨r, m, c, .followUp⟩ s.sched
      ∧ ((∃ i a, stale i = true ∧ before[i]? = some a ∧ a.deferredMode ≠ none) →
        (∃ i a, stale i = true ∧ before[i]? = some a ∧ a.deferredMode = some m)
          ∧ ∀ i a n, stale i = true → before[i]? = some a → a.deferredMode = some n → stronger n m = m)
      ∧ (c = .prompt ↔ ∃ i a, stale i = true ∧ before[i]? = some a ∧ a.deferredPrompt = true) := by
  have deferred : ∀ n, some n ∈ (tileRecs before (staleTiles l before)).map (·.deferredMode)
      ↔ ∃ i a, stale i = true ∧ before[i]? = some a ∧ a.deferredMode = some n :=
    fun n => List.mem_map.trans (exists_staleTile member _)
  have prompt : (tileRecs before (staleTiles l before)).any (·.deferredPrompt) = true
      ↔ ∃ i a, stale i = true ∧ before[i]? = some a ∧ a.deferredPrompt = true :=
    List.any_eq_true.trans (exists_staleTile member _)
  refine ⟨_, _, by rw [followUp, bound]; exact if_pos ((policyAuto_iff s).mpr auto), fun ⟨i, a, hi, ha, hmode⟩ => ?mode, ?cls⟩
  case mode =>
    obtain ⟨n, hn⟩ := Option.ne_none_iff_exists'.mp hmode
    obtain ⟨m, strongest, among, above⟩ := strongestOf_of_mem ((deferred n).mpr ⟨i, a, hi, ha, hn⟩)
    rw [strongest, Option.getD_some]
    exact ⟨(deferred m).mp among,
      fun k b o hk hb ho => (stronger_eq_right_iff o m).mpr (above o ((deferred o).mpr ⟨k, b, hk, hb, ho⟩))⟩
  case cls =>
    rw [← prompt]
    split
    · next some_prompt => exact iff_of_true rfl some_prompt
    · next no_prompt => exact iff_of_false (by decide) no_prompt

/-- No REFINE but after SWIFT, under AUTO, with setting 8 at 1. -/
theorem refineStep_none {s : State} {d : Drive} (h : d.driven ≠ .swift ∨ applied s 7 ≠ 0 ∨ applied s 8 ≠ 1) :
    refineStep s d = (s.sched, 0) := by
  refine if_neg ?_
  simp only [Bool.and_eq_true, beq_iff_eq, policyAuto_iff]
  tauto

/-- After SWIFT, under AUTO, with setting 8 at 1, the tiles of the rectangle with a mid-tone are refined. -/
theorem refineStep_swift {s : State} {d : Drive} (swift : d.driven = .swift) (auto : applied s 7 = 0) (on : applied s 8 = 1)
    {mid : Nat → Bool}
    (h : ∀ i, mid i = true ↔ inTileRect d.rect (i % tileCols s) (i / tileCols s) = true
      ∧ tileHasMidTone s.planes.t (tileCols s) i = true) :
    refineStep s d
      = ((boundTiles (tileCols s) ((List.range s.sched.tiles.length).filter mid)).map
          fun b => queueUpdate ⟨b, .text, .normal, .refine⟩ s.sched).getD (s.sched, 0) := by
  have tiles : mid = fun i => inTileRect d.rect (i % tileCols s) (i / tileCols s) && tileHasMidTone s.planes.t (tileCols s) i :=
    funext fun i => by rw [Bool.eq_iff_iff, h, Bool.and_eq_true]
  rw [refineStep, if_pos (by simp [swift, on, (policyAuto_iff s).mpr auto]), tilesWhere_eq_filter, tiles]
  split <;> next bound => rw [bound]; rfl

/-! ### The completion (R141 to R146) -/

/-- The planes of a completion: G first, then the stale tiles into T (R141, R143). -/
theorem landLane_planes (l : Nat) (d : Drive) (s : State) :
    (landLane l d s).planes
      = copyTiles (tileCols s) (staleTiles l s.sched.tiles)
        { s.planes with g := planeCopy (rectPixels d.rect) (glassLevel d.driven) s.planes.t s.planes.g } := by
  rw [landLane, copyTiles]

theorem applied_landLane (l : Nat) (d : Drive) (s : State) (id : Nat) : applied (landLane l d s) id = applied s id := by
  rw [applied, landLane_settings, applied]

theorem tileCols_landLane (l : Nat) (d : Drive) (s : State) : tileCols (landLane l d s) = tileCols s := by
  rw [tileCols, panelWidth, applied_landLane, tileCols, panelWidth]

/-- The scheduler and the id after the FOLLOW_UP of a completion. -/
def completionFollowUp (l : Nat) (d : Drive) (s : State) : Scheduler × Nat :=
  followUp (landLane l d s) s.sched.tiles (staleTiles l s.sched.tiles)

/-- The state of a completion after its FOLLOW_UP. -/
def followedUp (l : Nat) (d : Drive) (s : State) : State := { landLane l d s with sched := (completionFollowUp l d s).1 }

/-- The state after a completion, but for its notice. -/
def landed (l : Nat) (d : Drive) (s : State) : State :=
  withLane l .free { landLane l d s with sched := (refineStep (followedUp l d s) d).1 }

theorem completeLane_eq (l : Nat) (d : Drive) (s : State) :
    completeLane l d s
      = post
        (.updateDone d.id d.rect d.requested d.driven d.cls d.origin d.merged d.escalated d.degraded d.band d.frames
          (staleTiles l s.sched.tiles).length (completionFollowUp l d s).2 (refineStep (followedUp l d s) d).2)
        (landed l d s) := rfl

theorem landed_eq (l : Nat) (d : Drive) (s : State) :
    landed l d s
      = { s with
          planes := (landed l d s).planes, sched := (refineStep (followedUp l d s) d).1
          lanes := { s.lanes with lanes := s.lanes.lanes.set l .free } } := rfl

theorem landed_planes (l : Nat) (d : Drive) (s : State) : (landed l d s).planes = (landLane l d s).planes := rfl

theorem landed_tiles (l : Nat) (d : Drive) (s : State) :
    (landed l d s).sched.tiles = completeTiles (tileCols s) l d s.sched.tiles := (completeLane_tables l d s).1

theorem landLane_sched (l : Nat) (d : Drive) (s : State) :
    (landLane l d s).sched = { s.sched with tiles := (landed l d s).sched.tiles } := by
  rw [landed_tiles]
  rfl

/-- A completing lane completes. -/
theorem exec_updateCompletion {s : State} {l : Nat} {d : Drive} (driving : s.lanes.lanes[l]? = some (.driving d))
    (done : d.framesLeft = 0) : exec (.updateCompletion l) s = .next (completeLane l d s) := by
  refine congrArg Host.Outcome.next ?_
  rw [updateCompletion, laneAt_eq driving]
  exact if_pos done

/-- No lane, a FREE one or one with frames left: nothing completes (R135). -/
theorem updateCompletion_idle {s : State} {l : Nat}
    (h : s.lanes.lanes[l]? = none ∨ s.lanes.lanes[l]? = some .free
      ∨ ∃ d, s.lanes.lanes[l]? = some (.driving d) ∧ 0 < d.framesLeft) : updateCompletion l s = s := by
  rcases h with absent | free | ⟨d, driving, left⟩
  · have lane : laneAt s l = .free := by rw [laneAt, List.getD_eq_getElem?_getD, absent]; rfl
    rw [updateCompletion, lane]
  · rw [updateCompletion, laneAt_eq free]
  · rw [updateCompletion, laneAt_eq driving]
    exact if_neg (Nat.ne_of_gt left)

/-- The tile table after a FOLLOW_UP is that of the landing. -/
theorem followedUp_tiles (l : Nat) (d : Drive) (s : State) :
    (followedUp l d s).sched.tiles = completeTiles (tileCols s) l d s.sched.tiles := by
  rcases followUp_cases (landLane l d s) s.sched.tiles (staleTiles l s.sched.tiles) with same | ⟨u, queued⟩
  · exact congrArg Scheduler.tiles same
  · exact (congrArg Scheduler.tiles queued).trans (queueUpdate_frame u _).1

/-- T after a completion: the stale tiles read as in W, all else as before (R143). -/
theorem pixelAt_landed_t {l : Nat} {d : Drive} {s : State} (wf : PlaneWf s.planes.t) (columns : 0 < tileCols s)
    (fits : tileCols s ≤ 64) {x : Nat} (y : Nat) (hx : x < 4096) :
    ((∃ i ∈ staleTiles l s.sched.tiles, i % tileCols s = x / 64 ∧ i / tileCols s = y / 64) →
        pixelAt (landed l d s).planes.t x y = pixelAt s.planes.w x y)
      ∧ ((∀ i ∈ staleTiles l s.sched.tiles, ¬(i % tileCols s = x / 64 ∧ i / tileCols s = y / 64)) →
        pixelAt (landed l d s).planes.t x y = pixelAt s.planes.t x y) := by
  rw [landed_planes, landLane_planes]
  exact pixelAt_copyTiles columns fits _
    (p := { s.planes with g := planeCopy (rectPixels d.rect) (glassLevel d.driven) s.planes.t s.planes.g }) wf y hx

/-- T keeps its form over a completion. -/
theorem landed_t_wf {l : Nat} {d : Drive} {s : State} (wf : PlaneWf s.planes.t) : PlaneWf (landed l d s).planes.t := by
  rw [landed_planes, landLane_planes]
  exact copyTiles_wf _ _ wf

/-- G after a completion: the lane's rectangle takes the levels that T had, all else stays (R141). -/
theorem pixelAt_landed_g {l : Nat} {d : Drive} {s : State} (wf : PlaneWf s.planes.g) (right : d.rect.col1 < 64)
    (columns : d.rect.col0 ≤ d.rect.col1) (rows : d.rect.row0 ≤ d.rect.row1) {x : Nat} (y : Nat) (hx : x < 4096) :
    pixelAt (landed l d s).planes.g x y
      = if inTileRect d.rect (x / 64) (y / 64) = true then glassLevel d.driven (pixelAt s.planes.t x y)
        else pixelAt s.planes.g x y := by
  rw [landed_planes, landLane_planes, copyTiles_g,
    pixelAt_planeCopy (by simp only [rectPixels]; omega) (glassLevel d.driven) s.planes.t wf y hx]
  refine if_congr ?_ rfl rfl
  simp only [rectPixels, inTileRect, decide_eq_true_eq]
  omega

theorem glassLevel_eq (m : Mode) (level : Nat) :
    glassLevel m level = if m = .swift then (if level < 8 then 0 else 15) else level := by
  cases m <;> rfl

theorem landed_tile {l : Nat} {d : Drive} {s : State} {i : Nat} {a : TileRec} (ha : s.sched.tiles[i]? = some a) :
    (landed l d s).sched.tiles[i]? = some (landedTile (tileCols s) l d i a) := by
  rw [landed_tiles, completeTiles_getElem?, ha, Option.map_some]

/-- Settles O51: the completion by its parts, each by what it does to its tiles, to T, to G and to the update queue. -/
theorem completionLandsLane : Obligations.CompletionLandsLane := by
  refine ⟨fun s l => ⟨fun idle => congrArg Host.Outcome.next (updateCompletion_idle idle),
    fun d stale driving done hstale => ?lands⟩, fun s t l d x y driving done wf right hx columns rows stepped => ?glass⟩
  case lands =>
    have staleSet := staleTiles_eq_filter hstale
    have member : ∀ i, i ∈ staleTiles l s.sched.tiles ↔ stale i = true := fun i => mem_staleTiles.trans (hstale i).symm
    have auto_eq := applied_landLane l d s 7
    refine ⟨landed l d s, completionFollowUp l d s, refineStep (followedUp l d s) d, ?notice, landed_eq l d s, ?work,
      ?count, fun nothing => ?noFollowUp, fun b auto bound => ?followUp, fun nothing => ?noRefine,
      fun mid wf columns fits hmid swift auto on => ?refine, fun x y wf columns fits hx => ?target, fun i a ha => ?tile⟩
    case notice => rw [exec_updateCompletion driving done, completeLane_eq, staleSet]
    case work => rw [landed_planes, landLane_planes, copyTiles_w]
    case count => rw [landed_tiles]; exact mapFrom_length _ _ _
    case noFollowUp =>
      rw [completionFollowUp, followUp_none, landLane_sched]
      rw [auto_eq, List.eq_nil_iff_forall_not_mem]
      exact nothing.imp_right fun unset i hi => by rw [member, unset i] at hi; cases hi
    case followUp =>
      rw [← staleSet, ← tileCols_landLane l d s] at bound
      have queued := followUp_queued (auto_eq.trans auto) bound member
      rwa [landLane_sched] at queued
    case noRefine => exact refineStep_none nothing
    case refine =>
      have search := refineStep_swift (s := followedUp l d s) swift auto on (mid := mid) fun i =>
        (hmid i).trans (and_congr_right fun _ => (tileHasMidTone_iff (landed_t_wf wf) _ i).symm)
      rw [followedUp_tiles, completeTiles, mapFrom_length] at search
      refine search.trans ?_
      change (Option.map _ (boundTiles (tileCols s) _)).getD _ = _
      cases boundTiles (tileCols s) ((List.range s.sched.tiles.length).filter mid) <;> rfl
    case target =>
      obtain ⟨copied, kept⟩ := pixelAt_landed_t (l := l) (d := d) wf columns fits y hx
      simp only [member] at copied kept
      exact ⟨copied, kept⟩
    case tile =>
      obtain ⟨ink, glass⟩ := landedTile_wear (tileCols s) l d i a
      refine ⟨_, landed_tile ha, fun own => ?own, fun own waits => ?copied, fun own away => ?marks, fun other => ?other, ?wear⟩
      case own =>
        obtain ⟨idle, free, -⟩ := landTile_frame (wornTile (tileCols s) d i a)
        rw [landedTile_own own]
        exact ⟨idle, free⟩
      case copied =>
        rw [landedTile_own own]
        exact landTile_stale ((wornTile_state _ d i a).trans waits)
      case marks =>
        obtain ⟨dirty, newer⟩ := landTile_unchanged (mt (wornTile_state (tileCols s) d i a).symm.trans away)
        rw [landedTile_own own, dirty, newer, wornTile_frame]
        exact ⟨rfl, rfl⟩
      case other =>
        rw [landedTile_other other, wornTile_frame]
        exact ⟨rfl, rfl, rfl, rfl, rfl, rfl⟩
      case wear =>
        rw [ink, glass]
        exact wornTile_spec (tileCols s) d i a
  case glass =>
    rw [exec_updateCompletion driving done] at stepped
    obtain rfl := Host.Outcome.next.inj stepped
    have level := pixelAt_landed_g (l := l) wf right columns rows y hx
    refine ⟨fun inside => ?_, fun outside => ?_⟩
    · rw [if_pos inside, glassLevel_eq] at level
      exact level
    · rw [outside] at level
      exact level

end Sys2Proof.Machine
end

section
/-! SUPPORT. Each form of R150 read back from what it was written as, and with it every well-formed request (O3; log entries 12
to 14). -/

namespace Sys2Proof.Machine

/-! ### Forms (R150) -/

/-- A value that fits its form is read back whole, with the bytes that stand after it left. -/
def ReadsBack {α : Type} (put : α → List Byte) (get : List Byte → Option (α × List Byte)) (fits : α → Bool) : Prop :=
  ∀ a, fits a = true → ∀ l, get (put a ++ l) = some (a, l)

theorem put8_readsBack : ReadsBack put8 get8 fits8 := by
  intro n h l
  have hn : n < 256 := of_decide_eq_true h
  simp [put8, get8, Byte.ofNat, Nat.mod_eq_of_lt hn]

/-- Two bytes make the number modulo 65536 that they were written from. -/
theorem get16_put16 (n : Nat) (l : List Byte) : get16 (put16 n ++ l) = some (n % 65536, l) := by
  simp only [put16, get16, Byte.ofNat, List.cons_append, List.nil_append, BitVec.toNat_ofNat]
  congr 2
  omega

theorem put16_readsBack : ReadsBack put16 get16 fits16 := by
  intro n h l
  have hn : n < 65536 := of_decide_eq_true h
  rw [get16_put16, Nat.mod_eq_of_lt hn]

theorem putS8_readsBack : ReadsBack putS8 getS8 fitsS8 := by
  intro i h l
  have hi : -128 ≤ i ∧ i ≤ 127 := of_decide_eq_true h
  have hb : (BitVec.ofInt 8 i).toInt = i := by
    rw [BitVec.toInt_ofInt, Int.bmod_def]
    omega
  simp only [putS8, getS8, List.cons_append, List.nil_append, hb]

theorem putS16_readsBack : ReadsBack putS16 getS16 fitsS16 := by
  intro i h l
  have hi : -32768 ≤ i ∧ i ≤ 32767 := of_decide_eq_true h
  have hb : (BitVec.ofInt 16 i).toInt = i := by
    rw [BitVec.toInt_ofInt, Int.bmod_def]
    omega
  have hlt : (BitVec.ofInt 16 i).toNat % 65536 = (BitVec.ofInt 16 i).toNat := Nat.mod_eq_of_lt (BitVec.isLt _)
  simp only [putS16, getS16, get16_put16, hlt, Option.bind_eq_bind, Option.bind_some, BitVec.ofNat_toNat,
    BitVec.setWidth_eq, hb, pure]

theorem putFlag_readsBack : ReadsBack putFlag getFlag (fun _ => true) := by
  intro b _ l
  cases b <;> rfl

section

variable {α : Type} {put : α → List Byte} {get : List Byte → Option (α × List Byte)} {fits : α → Bool}

theorem ReadsBack.opt (h : ReadsBack put get fits) : ReadsBack (putOpt put) (getOpt get) (Option.all fits) := by
  intro o ho l
  cases o with
  | none => rfl
  | some a =>
    have ha := h a ho l
    simp [getOpt, putOpt, put8, get8, ha]

theorem ReadsBack.many (h : ReadsBack put get fits) (as : List α) (ha : as.all fits = true) (l : List Byte) :
    getMany get as.length ((as.map put).flatten ++ l) = some (as, l) := by
  induction as with
  | nil => rfl
  | cons a as ih =>
    rw [List.all_cons, Bool.and_eq_true] at ha
    simp [getMany, h a ha.1, ih ha.2]

theorem ReadsBack.list (h : ReadsBack put get fits) : ReadsBack (putList put) (getList get) (fitsList fits) := by
  intro as ha l
  rw [fitsList, Bool.and_eq_true] at ha
  simp [getList, putList, put16_readsBack _ ha.1, h.many as ha.2]

end

theorem getBytes_append (bs l : List Byte) : getBytes bs.length (bs ++ l) = some (bs, l) := by
  induction bs with
  | nil => rfl
  | cons b bs ih => simp [getBytes, ih]

/-! ### Records (R2, R6, R14, R25, R43, R82 to R84, R116) -/

theorem putPos_readsBack : ReadsBack putPos getPos Pos.wf := by
  intro p h l
  rw [Pos.wf, Bool.and_eq_true] at h
  obtain ⟨run, off⟩ := h
  simp [getPos, putPos, put16_readsBack _ run, put8_readsBack _ off]

theorem putStyleFields_readsBack : ReadsBack putStyleFields getStyleFields StyleFields.wf := by
  intro f h l
  simp only [StyleFields.wf, Bool.and_eq_true, and_assoc] at h
  obtain ⟨font, ink, letterSpacing, spaceNatural, spaceMin, spaceMax, lineHeight, firstIndent, paragraphGap, alignment,
    hyphenGlyph⟩ := h
  simp [getStyleFields, putStyleFields, put8_readsBack.opt _ font, put8_readsBack.opt _ ink,
    putS8_readsBack.opt _ letterSpacing, put16_readsBack.opt _ spaceNatural, put16_readsBack.opt _ spaceMin,
    put16_readsBack.opt _ spaceMax, put8_readsBack.opt _ lineHeight, put16_readsBack.opt _ firstIndent,
    put8_readsBack.opt _ paragraphGap, put8_readsBack.opt _ alignment, put16_readsBack.opt _ hyphenGlyph]

/-- A word's content; an absent continuation flag reads as not continued, an absent hyphen list as an empty one (R6). -/
theorem getRunRecord_word {gs : List Nat} {continues : Option Bool} {hyphens : Option (List Nat)}
    (hg : fitsList fits16 gs = true) (hh : hyphens.all (fitsList fits8) = true) (l : List Byte) :
    getRunRecord (put8 0 ++ (putList put16 gs ++ (putOpt putFlag continues ++ (putOpt (putList put8) hyphens ++ l))))
      = some (.word gs (continues.getD false) (hyphens.getD []), l) := by
  have flag := putFlag_readsBack.opt continues (by cases continues <;> rfl)
  simp [getRunRecord, put8_readsBack 0 rfl, put16_readsBack.list _ hg, flag, put8_readsBack.list.opt _ hh]

theorem word_readsBack {gs hyphens : List Nat} (continues : Bool) (hg : fitsList fits16 gs = true)
    (hh : fitsList fits8 hyphens = true) (l : List Byte) :
    getRunRecord (putRunRecord (.word gs continues hyphens) ++ l) = some (.word gs continues hyphens, l) := by
  have hh' : (if hyphens.isEmpty then none else some hyphens).all (fitsList fits8) = true := by
    cases hyphens with
    | nil => rfl
    | cons => exact hh
  simp only [putRunRecord, List.append_assoc, getRunRecord_word hg hh']
  cases continues <;> cases hyphens <;> rfl

theorem putRunRecord_readsBack : ReadsBack putRunRecord getRunRecord RunRecord.wf := by
  intro r h l
  cases r with
  | word gs continues hyphens =>
    rw [RunRecord.wf, Bool.and_eq_true] at h
    exact word_readsBack continues h.1 h.2 l
  | space | hardBreak | paraEnd | stylePop => rfl
  | stylePush id => 
    have hid := put8_readsBack id h l
    simp [getRunRecord, putRunRecord, put8_readsBack 4 rfl, hid]
  | stylePatch f => 
    have hf := putStyleFields_readsBack f h l
    simp [getRunRecord, putRunRecord, put8_readsBack 6 rfl, hf]
  | unknown c =>
    rw [RunRecord.wf, Bool.and_eq_true, decide_eq_true_eq] at h
    obtain ⟨fits, beyond⟩ := h
    obtain ⟨d, rfl⟩ := Nat.exists_eq_add_of_le' beyond
    rw [putRunRecord, getRunRecord, put8_readsBack _ fits]
    rfl

theorem putHeader_readsBack : ReadsBack putHeader getHeader FontHeader.wf := by
  intro f h l
  simp only [FontHeader.wf, Bool.and_eq_true, and_assoc, decide_eq_true_eq] at h
  obtain ⟨nameTag, glyphCount, ascent, descent, defaultAdvance, firstBank, lastBank⟩ := h
  have tag := getBytes_append f.nameTag
  rw [nameTag] at tag
  simp [getHeader, putHeader, tag, put16_readsBack _ glyphCount, put8_readsBack _ ascent, put8_readsBack _ descent,
    put16_readsBack _ defaultAdvance, put8_readsBack _ firstBank, put8_readsBack _ lastBank]

theorem packCoverage_length (cs : List Nat) : (packCoverage cs).length = (cs.length + 1) / 2 := by
  induction cs using packCoverage.induct with
  | case1 => rfl
  | case2 a => simp [packCoverage]
  | case3 a b rest ih =>
    simp only [packCoverage, List.length_cons, ih]
    omega

/-- Coverage values of four bits come out of their bytes as they went in (Table 2-2). -/
theorem unpackCoverage_packCoverage (cs : List Nat) (h : ∀ c ∈ cs, c < 16) :
    unpackCoverage cs.length (packCoverage cs) = cs := by
  induction cs using packCoverage.induct with
  | case1 => rfl
  | case2 a =>
    have ha : a < 16 := h a (by simp)
    simp [packCoverage, unpackCoverage, Byte.ofNat]
    omega
  | case3 a b rest ih =>
    have ha : a < 16 := h a (by simp)
    have hb : b < 16 := h b (by simp)
    have hrest := ih fun c hc => h c (by simp [hc])
    simp [packCoverage, unpackCoverage, Byte.ofNat, hrest]
    omega

/-- A glyph record from its stored form; its index there is not read (Table 2-2, R26). -/
theorem glyphBytes_readsBack (index : Nat) : ReadsBack (glyphBytes index) getGlyph GlyphRec.wf := by
  intro g h l
  simp only [GlyphRec.wf, Bool.and_eq_true, and_assoc, decide_eq_true_eq, List.all_eq_true] at h
  obtain ⟨advance, xBearing, topOffset, width, height, area, levels⟩ := h
  have map := getBytes_append (packCoverage g.coverage) l
  have unpacked := unpackCoverage_packCoverage g.coverage levels
  rw [packCoverage_length, area] at map
  rw [area] at unpacked
  have advance16 : fits16 g.advance = true := decide_eq_true (by omega)
  have width8 : fits8 g.width = true := decide_eq_true (by omega)
  have height8 : fits8 g.height = true := decide_eq_true (by omega)
  simp [getGlyph, glyphBytes, get16_put16, Nat.mod_eq_of_lt advance, Nat.mod_eq_of_lt width, Nat.mod_eq_of_lt height,
    put16_readsBack _ advance16, putS8_readsBack _ xBearing, putS8_readsBack _ topOffset, put8_readsBack _ width8,
    put8_readsBack _ height8, map, unpacked]

theorem putTileRect_readsBack : ReadsBack putTileRect getTileRect TileRect.wf := by
  intro r h l
  simp only [TileRect.wf, Bool.and_eq_true, and_assoc] at h
  obtain ⟨col0, col1, row0, row1⟩ := h
  simp [getTileRect, putTileRect, put8_readsBack _ col0, put8_readsBack _ col1, put8_readsBack _ row0, put8_readsBack _ row1]

theorem putKindField_readsBack : ReadsBack putKindField getKindField NoteKindField.wf := by
  intro k h l
  cases k with
  | fill a => simp [getKindField, putKindField, put8_readsBack 0 rfl, put8_readsBack a h]
  | underline t => simp [getKindField, putKindField, put8_readsBack 1 rfl, put8_readsBack t h]
  | box => rfl
  | unknown c =>
    rw [NoteKindField.wf, Bool.and_eq_true, decide_eq_true_eq] at h
    obtain ⟨fits, beyond⟩ := h
    obtain ⟨d, rfl⟩ := Nat.exists_eq_add_of_le' beyond
    rw [putKindField, getKindField, put8_readsBack _ fits]
    rfl

theorem ReadsBack.change {put : Nat → List Byte} {get : List Byte → Option (Nat × List Byte)} {fits : Nat → Bool}
    (h : ReadsBack put get fits) : ReadsBack (putChange put) (getChange get) (Change.wf fits) := by
  intro c hc l
  cases c with
  | keep | clear => rfl
  | set n => simp [getChange, putChange, put8_readsBack 1 rfl, h n hc]

theorem putNoteFields_readsBack : ReadsBack putNoteFields getNoteFields NoteFields.wf := by
  intro n h l
  simp only [NoteFields.wf, Bool.and_eq_true, and_assoc] at h
  obtain ⟨id, flow, start, stop, kind, ink, side, marginGlyph, marginStyle, marginText⟩ := h
  simp [getNoteFields, putNoteFields, put16_readsBack.opt _ id, put8_readsBack.opt _ flow, putPos_readsBack.opt _ start,
    putPos_readsBack.opt _ stop, putKindField_readsBack.opt _ kind, put8_readsBack.opt _ ink, put8_readsBack.opt _ side,
    put16_readsBack.opt _ marginGlyph, put8_readsBack.opt _ marginStyle, put16_readsBack.list.opt _ marginText]

theorem putNoteChanges_readsBack : ReadsBack putNoteChanges getNoteChanges NoteChanges.wf := by
  intro n h l
  simp only [NoteChanges.wf, Bool.and_eq_true, and_assoc] at h
  obtain ⟨flow, start, stop, kind, ink, side, marginGlyph, marginStyle, marginText⟩ := h
  simp [getNoteChanges, putNoteChanges, put8_readsBack.opt _ flow, putPos_readsBack.opt _ start,
    putPos_readsBack.opt _ stop, putKindField_readsBack.opt _ kind, put8_readsBack.opt _ ink, put8_readsBack.opt _ side,
    put16_readsBack.change _ marginGlyph, put8_readsBack.change _ marginStyle, put16_readsBack.list.opt _ marginText]

theorem putCompose_readsBack : ReadsBack putCompose getCompose ComposeFields.wf := by
  intro f h l
  simp only [ComposeFields.wf, Bool.and_eq_true, and_assoc] at h
  obtain ⟨tag, flow, start, style, x, y, w, hh, marginLeft, marginRight⟩ := h
  simp [getCompose, putCompose, put8_readsBack _ tag, put8_readsBack _ flow, putPos_readsBack _ start,
    put8_readsBack _ style, put16_readsBack _ x, put16_readsBack _ y, put16_readsBack _ w, put16_readsBack _ hh,
    put8_readsBack _ marginLeft, put8_readsBack _ marginRight]

/-! ### Requests (R150, Table 9-3) -/

/-- The fields of a request are read from the front of what follows them. -/
theorem getRequest_putRequest (r : Request) (h : r.fieldsFit = true) (l : List Byte) :
    getRequest (requestKind r) (putRequest r ++ l) = some (r, l) := by
  cases r with
  | status | reset | activate | standby | clearNotices | fontList | storeWipe | queueInfo => rfl
  | get | readNotices | flowClear | flowInfo | styleRead | fontEnd | fontDrop | fontLock | fontCheck | protectRaise
  | composeAbort =>
    have field := put8_readsBack _ h l
    simp [requestKind, getRequest, putRequest, field]
  | noteRemove | noteList =>
    have field := put16_readsBack _ h l
    simp [requestKind, getRequest, putRequest, field]
  | set id v | glyphGet id v | frameRelease id v =>
    obtain ⟨first, second⟩ := (Bool.and_eq_true _ _).mp h
    simp [requestKind, getRequest, putRequest, put8_readsBack _ first, put16_readsBack _ second]
  | setTemperature d =>
    have degrees := putS16_readsBack d h l
    simp [requestKind, getRequest, putRequest, degrees]
  | flowAppend slot records =>
    obtain ⟨first, second⟩ := (Bool.and_eq_true _ _).mp h
    simp [requestKind, getRequest, putRequest, put8_readsBack _ first, putRunRecord_readsBack.list _ second]
  | styleDefine id f =>
    obtain ⟨first, second⟩ := (Bool.and_eq_true _ _).mp h
    simp [requestKind, getRequest, putRequest, put8_readsBack _ first, putStyleFields_readsBack _ second]
  | fontBegin slot header =>
    obtain ⟨first, second⟩ := (Bool.and_eq_true _ _).mp h
    simp [requestKind, getRequest, putRequest, put8_readsBack _ first, putHeader_readsBack _ second]
  | glyphPut slot start glyphs =>
    simp only [Request.fieldsFit, Bool.and_eq_true, and_assoc] at h
    obtain ⟨slot8, start16, records⟩ := h
    simp [requestKind, getRequest, putRequest, put8_readsBack _ slot8, put16_readsBack.opt _ start16,
      (glyphBytes_readsBack 0).list _ records]
  | compose f =>
    have fields := putCompose_readsBack f h l
    simp [requestKind, getRequest, putRequest, fields]
  | frameInfo slot gen line =>
    simp only [Request.fieldsFit, Bool.and_eq_true, and_assoc] at h
    obtain ⟨slot8, gen16, line8⟩ := h
    simp [requestKind, getRequest, putRequest, put8_readsBack _ slot8, put16_readsBack _ gen16, put8_readsBack _ line8]
  | locate slot gen x y =>
    simp only [Request.fieldsFit, Bool.and_eq_true, and_assoc] at h
    obtain ⟨slot8, gen16, x16, y16⟩ := h
    simp [requestKind, getRequest, putRequest, put8_readsBack _ slot8, put16_readsBack _ gen16, put16_readsBack _ x16,
      put16_readsBack _ y16]
  | noteAdd n =>
    have fields := putNoteFields_readsBack n h l
    simp [requestKind, getRequest, putRequest, fields]
  | noteChange id c =>
    obtain ⟨first, second⟩ := (Bool.and_eq_true _ _).mp h
    simp [requestKind, getRequest, putRequest, put16_readsBack _ first, putNoteChanges_readsBack _ second]
  | commit m c rect | refresh m c rect =>
    simp only [Request.fieldsFit, Bool.and_eq_true, and_assoc] at h
    obtain ⟨mode8, class8, area⟩ := h
    simp [requestKind, getRequest, putRequest, put8_readsBack _ mode8, put8_readsBack _ class8,
      putTileRect_readsBack.opt _ area]

/-- Settles O3: the payload is read by `getRequest_putRequest`, and nothing is left over. -/
theorem requestPayloadRoundTrip : Obligations.RequestPayloadRoundTrip := by
  intro r h
  obtain ⟨fits, -⟩ := (Bool.and_eq_true _ _).mp h
  have read := getRequest_putRequest r fits []
  rw [List.append_nil] at read
  rw [readRequest, read]

end Sys2Proof.Machine
end

section
/-! SUPPORT. Requests handed over by HAND_OVER or presented by their commands: checks in order, then the owner; STATUS's fields
(O6, O7, O10; R152, R154 to R156, R171). -/

namespace Sys2Proof.Machine

/-! ### HAND_OVER (R152, R156) -/

/-- With no request, no place FREE, or a RESET that awaits its effect nothing is handed over (R152, R156). -/
theorem handOver_idle {s : State}
    (h : s.link.requests = [] ∨ s.link.resetAwaits = true ∨ 8 ≤ s.link.reserved + s.link.filled.length) :
    handOver s = s := by
  unfold handOver
  split
  · rfl
  · next hq =>
    refine if_neg ?_
    rcases h with h | h | h
    · rw [hq] at h
      cases h
    · simp [mayHandOver, h]
    · simp [mayHandOver, freePlaces_zero h]

/-- The oldest request is handed over and leaves the queue (R152). -/
theorem handOver_takes {s : State} {q : RawRequest} {rest : List RawRequest} (hq : s.link.requests = q :: rest)
    (hr : s.pins.resetHeld = false) (ha : s.link.resetAwaits = false) (hf : s.link.reserved + s.link.filled.length < 8) :
    handOver s = handRequest q { s with link := { s.link with requests := rest } } := by
  have may : mayHandOver s = true := by simp [mayHandOver, running, hr, ha, freePlaces_pos hf]
  rw [handOver, hq]
  exact if_pos may

theorem handRequest_unknown {q : RawRequest} (h : knownKinds.contains q.kind.toNat = false) (s : State) :
    handRequest q s = replied q.tag q.kind .unknownKind .none s := by
  rw [handRequest, h]
  rfl

theorem handRequest_known {q : RawRequest} (h : knownKinds.contains q.kind.toNat = true) (s : State) :
    handRequest q s = handKnown q.tag q.kind (readRequest q.kind.toNat q.payload) s := by
  rw [handRequest, h]
  rfl

/-- During STARTING any kind but STATUS's is refused (R152). -/
theorem handKnown_starting {s : State} (hp : s.settings.power = .starting) {kind : Byte} (hk : kind ≠ 0x01#8) (tag : Byte)
    (r : Option Request) : handKnown tag kind r s = replied tag kind .starting .none s :=
  if_pos ⟨hp, hk⟩

/-- Otherwise an unreadable payload is refused, and a request goes to its owner (R152). -/
theorem handKnown_passed {s : State} {kind : Byte} (h : s.settings.power ≠ .starting ∨ kind = 0x01#8) (tag : Byte) :
    handKnown tag kind none s = replied tag kind .malformed .none s
      ∧ ∀ r, handKnown tag kind (some r) s = ownerTakes tag kind r s := by
  have passed : ¬(s.settings.power = .starting ∧ kind ≠ 0x01#8) := by
    rintro ⟨hp, hk⟩
    exact h.elim (fun k => k hp) hk
  exact ⟨if_neg passed, fun _ => if_neg passed⟩

/-- Settles O6: the oldest request by `handOver_takes`, its checks one by one; nothing else by `handOver_idle`. -/
theorem handOverChecksThenOwner : Obligations.HandOverChecksThenOwner := by
  refine fun s => ⟨fun q rest hq hr ha hf => ?_, fun h => congrArg Host.Outcome.next (handOver_idle h)⟩
  have takes : exec .handOver s = .next (handRequest q { s with link := { s.link with requests := rest } }) :=
    congrArg Host.Outcome.next (handOver_takes hq hr ha hf)
  rw [takes]
  refine ⟨fun unknown => congrArg Host.Outcome.next (handRequest_unknown unknown _), fun known starting notStatus => ?_,
    fun known passes => ?_⟩
  · rw [handRequest_known known, handKnown_starting (by exact starting) notStatus]
  · rw [handRequest_known known]
    obtain ⟨unreadable, owner⟩ :=
      handKnown_passed (s := { s with link := { s.link with requests := rest } }) passes q.tag
    refine ⟨fun hread => ?_, fun r hread => ?_⟩
    · rw [hread, unreadable]
    · rw [hread, owner]

/-! ### Request commands (R152, R154, R156, R171) -/

/-- A frame that finds room joins the request queue (R154). -/
theorem arrive_queued {s : State} (h : s.link.requests.length < 8) (q : RawRequest) :
    arrive q s = { s with link := { s.link with requests := s.link.requests ++ [q] } } :=
  if_pos h

/-- A frame at a full request queue is answered OVERRUN when a place is FREE (R154). -/
theorem arrive_overrun {s : State} (h : 8 ≤ s.link.requests.length) (hf : s.link.reserved + s.link.filled.length < 8)
    (q : RawRequest) : arrive q s = replied q.tag q.kind .overrun .none s :=
  (if_neg (Nat.not_lt.mpr h)).trans (if_pos (freePlaces_pos hf))

/-- A frame at a full request queue with no place FREE is dropped (R154). -/
theorem arrive_dropped {s : State} (h : 8 ≤ s.link.requests.length) (hf : 8 ≤ s.link.reserved + s.link.filled.length)
    (q : RawRequest) : arrive q s = s :=
  (if_neg (Nat.not_lt.mpr h)).trans (if_neg (by rw [freePlaces_zero hf]; exact Nat.lt_irrefl 0))

/-- A command that carries a request presents it. -/
theorem exec_request {i : Instr} {tag : Byte} {r : Request} (h : i.asRequest = some (tag, r)) (s : State) :
    exec i s = .next (present tag r s) := by
  rcases exec_cases i s with ⟨tag', r', h', he⟩ | ⟨h', -⟩
  · cases h.symm.trans h'
    exact he
  · cases h.symm.trans h'

/-- Settles O7: a request that cannot be handed over arrives, by room in the queue and among the places. -/
theorem requestsWaitTheirTurn : Obligations.RequestsWaitTheirTurn := by
  intro i tag r s hi
  rw [exec_request hi]
  refine ⟨fun held => congrArg Host.Outcome.next (present_held held tag r), fun free waits => ?_,
    fun notStatus isOpen starting => ?_⟩
  · rw [present_waits free waits]
    exact ⟨fun room => congrArg Host.Outcome.next (arrive_queued room _),
      fun full place => congrArg Host.Outcome.next (arrive_overrun full place _),
      fun full noPlace => congrArg Host.Outcome.next (arrive_dropped full noPlace _)⟩
  · rw [present_open isOpen, handKnown_starting starting (kindByte_ne_status r notStatus)]

/-! ### STATUS (R155) -/

/-- Settles O10: STATUS passes the checks in every power state, and its queue is empty as the link is open. -/
theorem statusReports : Obligations.StatusReports := by
  intro s tag isOpen
  refine congrArg Host.Outcome.next ?_
  obtain ⟨-, noRequests, -⟩ := id isOpen
  have passed := (handKnown_passed (s := s) (kind := 0x01#8) (.inr rfl) tag).2 .status
  rw [present_open isOpen]
  refine passed.trans ?_
  simp only [ownerTakes, decided_eq, takeStatus, statusInfo, noRequests, List.length_nil, List.countP_eq_length_filter,
    busyLanes, noticeCount, startedState]

end Sys2Proof.Machine
end

section
/-! SUPPORT. An exchange's two directions apart: what its inbound byte leaves of the receive hunt, the request queue and the
places behind the reply under way, and what its outbound byte leaves of the reply (R147, R149, R153, R154). -/

namespace Sys2Proof.Machine

/-! ### What an exchange gives (R153) -/

/-- The outbound side alone changes: the FILLED places, the reply being sent, and the record of what was given. -/
def OutboundOnly (l m : LinkUnit) : Prop :=
  m = { l with filled := m.filled, sent := m.sent, givenBits := m.givenBits, given := m.given, lastSent := m.lastSent }

theorem OutboundOnly.trans {a b c : LinkUnit} (h : OutboundOnly a b) (k : OutboundOnly b c) : OutboundOnly a c := by
  unfold OutboundOnly at h k ⊢
  rw [h] at k
  exact k

theorem OutboundOnly.hunt {l m : LinkUnit} (h : OutboundOnly l m) : m.hunt = l.hunt := by rw [h]
theorem OutboundOnly.requests {l m : LinkUnit} (h : OutboundOnly l m) : m.requests = l.requests := by rw [h]
theorem OutboundOnly.reserved {l m : LinkUnit} (h : OutboundOnly l m) : m.reserved = l.reserved := by rw [h]
theorem OutboundOnly.resetAwaits {l m : LinkUnit} (h : OutboundOnly l m) : m.resetAwaits = l.resetAwaits := by rw [h]
theorem OutboundOnly.port {l m : LinkUnit} (h : OutboundOnly l m) : m.port = l.port := by rw [h]

/-- The link after the outbound byte `o` has been given whole and no reset has taken effect (R153). -/
def gaveByte (o : Outgoing) (l : LinkUnit) : LinkUnit :=
  match o, l.filled with
  | .reply, r :: rest =>
    if l.sent + 1 < (replyFrame r).length then
      { l with given := l.given ++ [(replyFrame r).getD l.sent 0#8], sent := l.sent + 1 }
    else
      { l with
        given := l.given ++ [(replyFrame r).getD l.sent 0#8]
        filled := rest
        sent := 0
        lastSent := some (replyFrame r) }
  | _, _ => { l with given := l.given ++ [0x00#8] }

theorem gaveByte_next {l : LinkUnit} {r : Reply} {rest : List Reply} (hf : l.filled = r :: rest)
    (hs : l.sent + 1 < (replyFrame r).length) :
    gaveByte .reply l = { l with given := l.given ++ [(replyFrame r).getD l.sent 0#8], sent := l.sent + 1 } := by
  simp [gaveByte, hf, hs]

theorem gaveByte_last {l : LinkUnit} {r : Reply} {rest : List Reply} (hf : l.filled = r :: rest)
    (hs : (replyFrame r).length ≤ l.sent + 1) :
    gaveByte .reply l
      = { l with
          given := l.given ++ [(replyFrame r).getD l.sent 0#8]
          filled := rest
          sent := 0
          lastSent := some (replyFrame r) } := by
  simp [gaveByte, hf, Nat.not_lt.mpr hs]

theorem gaveByte_outboundOnly (o : Outgoing) (l : LinkUnit) : OutboundOnly l (gaveByte o l) := by
  unfold gaveByte
  split
  · split <;> rfl
  · rfl

/-- An outbound byte frees the earliest place or none (R153). -/
theorem gaveByte_filled (o : Outgoing) (l : LinkUnit) : (gaveByte o l).filled <:+ l.filled := by
  unfold gaveByte
  split
  · next r rest hf =>
    split
    · exact List.suffix_rfl
    · rw [hf]
      exact List.suffix_cons r rest
  · exact List.suffix_rfl

/-! ### What an exchange takes (R149, R154) -/

/-- The link after inbound bytes: the receive hunt, the request queue, and OVERRUNs behind the FILLED places. -/
def heard (h : Hunt) (requests : List RawRequest) (overruns : List Reply) (l : LinkUnit) : LinkUnit :=
  { l with hunt := h, requests := requests, filled := l.filled ++ overruns }

theorem heard_nil (h : Hunt) (l : LinkUnit) : heard h l.requests [] l = { l with hunt := h } := by
  rw [heard, List.append_nil]

theorem heard_self (l : LinkUnit) : heard l.hunt l.requests [] l = l := heard_nil l.hunt l

theorem heard_hunt (h x : Hunt) (requests : List RawRequest) (overruns : List Reply) (l : LinkUnit) :
    heard h requests overruns { l with hunt := x } = heard h requests overruns l := rfl

/-- The outbound byte is not the last of a RESET's reply (R156). -/
def EndsNoReset (o : Outgoing) (l : LinkUnit) : Prop :=
  ∀ r rest, o = .reply → l.filled = r :: rest → (replyFrame r).length ≤ l.sent + 1 → isResetReply r = false

/-- An OVERRUN that joins the places behind a reply leaves the outbound byte as it is (R153, R154). -/
theorem giveByte_heard {o : Outgoing} {s : State} (ho : s.link.filled = [] → o = .fill)
    (hn : EndsNoReset o s.link) (h : Hunt) (requests : List RawRequest) (overruns : List Reply) :
    giveByte o { s with link := heard h requests overruns s.link }
      = { s with link := heard h requests overruns (gaveByte o s.link) } := by
  cases o with
  | fill => rfl
  | reply =>
    cases hf : s.link.filled with
    | nil => exact absurd (ho hf) (by decide)
    | cons r rest =>
      have behind : (heard h requests overruns s.link).filled = r :: (rest ++ overruns) := by
        rw [heard, hf, List.cons_append]
      by_cases hs : s.link.sent + 1 < (replyFrame r).length
      · rw [giveByte_next (s := { s with link := heard h requests overruns s.link }) behind hs, gaveByte_next hf hs]
        rfl
      · rw [giveByte_last (s := { s with link := heard h requests overruns s.link }) behind (Nat.not_lt.mp hs),
          gaveByte_last hf (Nat.not_lt.mp hs), finishReply]
        simp only [hn r rest rfl hf (Nat.not_lt.mp hs)]
        rfl

/-- The exchange of an inbound byte by what it leaves of the receive side (R147, R149, R153). -/
theorem exchange_heard {o : Outgoing} {b : Byte} {s : State} {h : Hunt} {requests : List RawRequest} {overruns : List Reply}
    (ho : s.link.filled = [] → o = .fill) (hn : EndsNoReset o s.link)
    (received : receiveByte { s with link := { s.link with port := Port.idle } } b
      = { s with link := heard h requests overruns { s.link with port := Port.idle } }) :
    exchange o b s
      = { s with link := heard h requests overruns (gaveByte o { s.link with port := Port.idle }) } := by
  rw [exchange_eq, received]
  exact giveByte_heard (s := { s with link := { s.link with port := Port.idle } }) ho hn h requests overruns

/-! ### Eight clocks (R147) -/

/-- The link after eight clocks that began between exchanges, but for what their inbound byte leaves. -/
def gaveWhole (l : LinkUnit) : LinkUnit :=
  gaveByte (outgoing l)
    { l with port := Port.idle, givenBits := l.givenBits ++ bitsOfByte (outByte (outgoing l) l) }

theorem gaveWhole_outboundOnly {l : LinkUnit} (hp : l.port = Port.idle) : OutboundOnly l (gaveWhole l) := by
  refine OutboundOnly.trans (b := { l with port := Port.idle, givenBits := _ }) ?_ (gaveByte_outboundOnly _ _)
  rw [← hp]
  rfl

/-- Giving a byte leaves the receive side as it is (R149, R153). -/
theorem heard_gaveWhole (l : LinkUnit) : heard l.hunt l.requests [] (gaveWhole l) = gaveWhole l := by
  have same := gaveByte_outboundOnly (outgoing l)
    { l with port := Port.idle, givenBits := l.givenBits ++ bitsOfByte (outByte (outgoing l) l) }
  have hunt : (gaveWhole l).hunt = l.hunt := same.hunt
  have requests : (gaveWhole l).requests = l.requests := same.requests
  rw [← hunt, ← requests, heard_self]

theorem outgoing_idle_empty {l : LinkUnit} (hp : l.port = Port.idle) (hf : l.filled = []) : outgoing l = .fill := by
  rw [outgoing, hp, hf]
  rfl

theorem outgoing_reply {l : LinkUnit} (ho : l.port.out ≠ some .fill) {r : Reply} {rest : List Reply}
    (hf : l.filled = r :: rest) : outgoing l = .reply := by
  unfold outgoing
  split
  · next o out =>
    cases o with
    | fill => exact absurd out ho
    | reply => rfl
  · rw [hf]
    rfl

theorem outgoing_idle_reply {l : LinkUnit} (hp : l.port = Port.idle) {r : Reply} {rest : List Reply}
    (hf : l.filled = r :: rest) : outgoing l = .reply :=
  outgoing_reply (by rw [hp]; decide) hf

theorem outByte_reply {l : LinkUnit} {r : Reply} {rest : List Reply} (hf : l.filled = r :: rest) :
    outByte .reply l = (replyFrame r).getD l.sent 0#8 := by
  simp only [outByte, hf]

theorem gaveWhole_fill {l : LinkUnit} (ho : outgoing l = .fill) :
    gaveWhole l
      = { l with
          port := Port.idle, givenBits := l.givenBits ++ bitsOfByte 0x00#8, given := l.given ++ [0x00#8] } := by
  rw [gaveWhole, ho]
  rfl

theorem gaveWhole_next {l : LinkUnit} {r : Reply} {rest : List Reply} (ho : outgoing l = .reply) (hf : l.filled = r :: rest)
    (hs : l.sent + 1 < (replyFrame r).length) :
    gaveWhole l
      = { l with
          port := Port.idle
          sent := l.sent + 1
          givenBits := l.givenBits ++ bitsOfByte ((replyFrame r).getD l.sent 0#8)
          given := l.given ++ [(replyFrame r).getD l.sent 0#8] } := by
  rw [gaveWhole, ho, outByte_reply hf]
  exact gaveByte_next hf hs

theorem gaveWhole_last {l : LinkUnit} {r : Reply} {rest : List Reply} (ho : outgoing l = .reply) (hf : l.filled = r :: rest)
    (hs : (replyFrame r).length ≤ l.sent + 1) :
    gaveWhole l
      = { l with
          filled := rest
          port := Port.idle
          sent := 0
          givenBits := l.givenBits ++ bitsOfByte ((replyFrame r).getD l.sent 0#8)
          given := l.given ++ [(replyFrame r).getD l.sent 0#8]
          lastSent := some (replyFrame r) } := by
  rw [gaveWhole, ho, outByte_reply hf]
  exact gaveByte_last hf hs

/-- A byte of the host by what it leaves of the receive side (R147, R149, R153). -/
theorem portEvent_byte_heard {b : Byte} {s : State} {h : Hunt} {requests : List RawRequest} {overruns : List Reply}
    (hb : s.link.port.bits = []) (ho : s.link.filled = [] → outgoing s.link = .fill)
    (hn : EndsNoReset (outgoing s.link) s.link)
    (received : ∀ bits,
      receiveByte { s with link := { s.link with port := Port.idle, givenBits := bits } } b
        = { s with link := heard h requests overruns { s.link with port := Port.idle, givenBits := bits } }) :
    portEvent s (.byte b) = { s with link := heard h requests overruns (gaveWhole s.link) } := by
  rw [portEvent_byte hb]
  exact exchange_heard (s := { s with link := { s.link with givenBits := _ } }) ho hn (received _)

end Sys2Proof.Machine
end

section
/-! SUPPORT. Whole bytes of the host: they give the FILLED replies' bytes and then fill, and a frame's bytes walk the receive
hunt to the judgement of its check value (R147 to R149, R153, R154). -/

namespace Sys2Proof.Machine

/-! ### Bytes given one after another (R153) -/

/-- One more byte given: the next of the replies' bytes, or fill. -/
structure GaveOne (a c : LinkUnit) : Prop where
  given : c.given = a.given ++ [(outStream a).headD 0x00#8]
  givenBits : c.givenBits = a.givenBits ++ bitsOfByte ((outStream a).headD 0x00#8)
  stream : outStream c = (outStream a).tail
  empty : c.filled = [] → c.sent = 0
  sent : ∀ r rest, c.filled = r :: rest → c.sent < (replyFrame r).length
  places : c.filled = a.filled ∧ c.lastSent = a.lastSent
    ∨ ∃ r, a.filled = r :: c.filled ∧ c.lastSent = some (replyFrame r)

/-- What the replies still have to give begins with what is left of the earliest one. -/
theorem outStream_cons {l : LinkUnit} {r : Reply} {rest : List Reply} (hf : l.filled = r :: rest)
    (hs : l.sent < (replyFrame r).length) :
    outStream l
      = (replyFrame r).getD l.sent 0x00#8 :: ((replyFrame r).drop (l.sent + 1) ++ (rest.map replyFrame).flatten) := by
  rw [outStream, hf, List.map_cons, List.flatten_cons, List.drop_append_of_le_length hs.le, List.drop_eq_getElem_cons hs,
    List.getD_eq_getElem _ _ hs, List.cons_append]

theorem gaveWhole_gaveOne {l : LinkUnit} (hp : l.port = Port.idle) (empty : l.filled = [] → l.sent = 0)
    (sent : ∀ r rest, l.filled = r :: rest → l.sent < (replyFrame r).length) : GaveOne l (gaveWhole l) := by
  cases hf : l.filled with
  | nil =>
    have stream : outStream l = [] := by rw [outStream, hf]; simp
    rw [gaveWhole_fill (outgoing_idle_empty hp hf)]
    refine ⟨?_, ?_, ?_, empty, sent, .inl ⟨rfl, rfl⟩⟩
    · rw [stream]; rfl
    · rw [stream]; rfl
    · exact stream.trans (by rw [stream]; rfl)
  | cons r rest =>
    have stream := outStream_cons hf (sent r rest hf)
    by_cases hs : l.sent + 1 < (replyFrame r).length
    · rw [gaveWhole_next (outgoing_idle_reply hp hf) hf hs]
      refine ⟨by rw [stream]; rfl, by rw [stream]; rfl, ?_, fun he => ?_, fun q more he => ?_, .inl ⟨rfl, rfl⟩⟩
      · rw [stream, List.tail_cons, outStream]
        simp only [hf, List.map_cons, List.flatten_cons]
        exact List.drop_append_of_le_length hs.le
      · cases hf.symm.trans he
      · cases hf.symm.trans he
        exact hs
    · have hs' := Nat.not_lt.mp hs
      rw [gaveWhole_last (outgoing_idle_reply hp hf) hf hs']
      refine ⟨by rw [stream]; rfl, by rw [stream]; rfl, ?_, fun _ => rfl, fun q _ _ => replyFrame_pos q,
        .inr ⟨r, hf, rfl⟩⟩
      rw [stream, List.tail_cons, List.drop_eq_nil_of_le hs', List.nil_append]
      rfl

/-- What `n + 1` exchanges give is what `n` give and the next byte of the stream, or fill. -/
theorem take_fill_succ (stream : List Byte) (n : Nat) :
    (stream ++ List.replicate (n + 1) 0x00#8).take (n + 1)
      = (stream ++ List.replicate n 0x00#8).take n ++ [(stream.drop n).headD 0x00#8] := by
  have next : (stream ++ List.replicate (n + 1) 0x00#8)[n]? = some ((stream.drop n).headD 0x00#8) := by
    rw [List.headD_eq_head?_getD, List.head?_drop]
    rcases Nat.lt_or_ge n stream.length with hn | hn
    · rw [List.getElem?_append_left hn, List.getElem?_eq_getElem hn, Option.getD_some]
    · rw [List.getElem?_append_right hn, List.getElem?_eq_none hn, List.getElem?_replicate, if_pos (by omega),
        Option.getD_none]
  rw [List.take_add_one, next, Option.toList_some, List.replicate_succ', ← List.append_assoc,
    List.take_append_of_le_length (by simp)]

theorem lineBits_concat (l : List Byte) (b : Byte) : lineBits (l ++ [b]) = lineBits l ++ bitsOfByte b := by
  simp [lineBits, bitsOfByte]

theorem Gave.next {n : Nat} {b a c : LinkUnit} (h : Gave n b a) (one : GaveOne a c) : Gave (n + 1) b c := by
  obtain ⟨given, bits, stream, kept, -, -, last⟩ := h
  have given' : c.given = (outStream b ++ List.replicate (n + 1) 0x00#8).take (n + 1) := by
    rw [one.given, stream, given, take_fill_succ]
  refine ⟨given', ?_, ?_, ?_, one.empty, one.sent, ?_⟩
  · rw [one.givenBits, bits, one.given, lineBits_concat]
  · rw [one.stream, stream, List.tail_drop]
  · rcases one.places with ⟨same, -⟩ | ⟨r, freed, -⟩
    · rwa [same]
    · exact ((List.suffix_cons r c.filled).trans (by rw [← freed])).trans kept
  · rcases one.places with ⟨same, lastSent⟩ | ⟨r, freed, lastSent⟩
    · rw [same, lastSent, last]
    · obtain ⟨before, hb⟩ := kept
      rw [freed] at hb
      have shorter : c.filled.length ≠ b.filled.length := by
        rw [← hb, List.length_append, List.length_cons]
        omega
      have place : b.filled.length - c.filled.length - 1 = before.length := by
        rw [← hb, List.length_append, List.length_cons]
        omega
      rw [if_neg shorter, lastSent, place, ← hb, List.getElem?_append_right (Nat.le_refl _), Nat.sub_self]
      rfl

/-- The link with its record of given bits and bytes begun anew (log entry 16). -/
def LinkUnit.recordCleared (l : LinkUnit) : LinkUnit := { l with givenBits := [], given := [] }

theorem clearGiven_eq (s : State) : clearGiven s = { s with link := s.link.recordCleared } := rfl

theorem Gave.zero {l : LinkUnit} (empty : l.filled = [] → l.sent = 0)
    (sent : ∀ r rest, l.filled = r :: rest → l.sent < (replyFrame r).length) : Gave 0 l l.recordCleared :=
  ⟨rfl, rfl, rfl, List.suffix_rfl, empty, sent, (if_pos rfl).symm⟩

theorem iterate_gaveWhole_outboundOnly {l : LinkUnit} (hp : l.port = Port.idle) (n : Nat) :
    OutboundOnly l (gaveWhole^[n] l) := by
  induction n with
  | zero => rfl
  | succ n ih =>
    rw [Function.iterate_succ_apply']
    exact ih.trans (gaveWhole_outboundOnly (ih.port.trans hp))

/-- `n` bytes of the host, begun between exchanges, give `n` bytes (R147, R153). -/
theorem iterate_gaveWhole_gave {l : LinkUnit} (hp : l.port = Port.idle) (empty : l.filled = [] → l.sent = 0)
    (sent : ∀ r rest, l.filled = r :: rest → l.sent < (replyFrame r).length) (n : Nat) :
    Gave n l (gaveWhole^[n] l.recordCleared) := by
  induction n with
  | zero => exact Gave.zero empty sent
  | succ n ih =>
    rw [Function.iterate_succ_apply']
    obtain ⟨-, -, -, -, empty', sent', -⟩ := id ih
    have port := (iterate_gaveWhole_outboundOnly (l := l.recordCleared) hp n).port
    exact ih.next (gaveWhole_gaveOne (port.trans hp) empty' sent')

/-! ### The receive hunt along a frame (R149) -/

/-- The receive hunt after a byte; the second CRC byte of a frame is judged instead. -/
def huntNext : Hunt → Byte → Option Hunt
  | .hunt, b => some (huntByte b)
  | .length none, b => some (.length (some b))
  | .length (some first), b => some (afterLength first b)
  | .body n kept, b =>
    some (if kept.length + 1 < n + 4 then .body n (kept ++ [b]) else .check (kept ++ [b]) none)
  | .check kept none, b => some (.check kept (some b))
  | .check _ (some _), _ => none

theorem receiveByte_hunted {s : State} (hr : s.pins.resetHeld = false) {b : Byte} {h : Hunt}
    (hn : huntNext s.link.hunt b = some h) : receiveByte s b = withHunt h s := by
  rw [receiveByte, hr, if_neg (by decide)]
  cases hs : s.link.hunt with
  | hunt => rw [hs] at hn; cases hn; rfl
  | length first => cases first <;> (rw [hs] at hn; cases hn; rfl)
  | body n kept =>
    rw [hs] at hn
    cases hn
    exact (apply_ite (withHunt · s) _ _ _).symm
  | check kept high =>
    rw [hs] at hn
    cases high with
    | none => cases hn; rfl
    | some high => cases hn

theorem receiveByte_judged {s : State} (hr : s.pins.resetHeld = false) {kept : List Byte} {high : Byte}
    (hs : s.link.hunt = .check kept (some high)) (low : Byte) :
    receiveByte s low = judge kept high low (withHunt .hunt s) := by
  rw [receiveByte, hr, if_neg (by decide), hs]

theorem gaveByte_hunt (o : Outgoing) (h : Hunt) (l : LinkUnit) :
    gaveByte o { l with hunt := h } = { gaveByte o l with hunt := h } := by
  simp only [gaveByte]
  split
  · split <;> rfl
  · rfl

theorem gaveWhole_hunt (h : Hunt) (l : LinkUnit) : gaveWhole { l with hunt := h } = { gaveWhole l with hunt := h } :=
  gaveByte_hunt (outgoing l) h { l with port := Port.idle, givenBits := l.givenBits ++ bitsOfByte (outByte (outgoing l) l) }

/-- The receive hunt goes its way beside the outbound side (R149). -/
theorem iterate_gaveWhole_hunt (h : Hunt) (n : Nat) (l : LinkUnit) :
    gaveWhole^[n] { l with hunt := h } = { gaveWhole^[n] l with hunt := h } :=
  Function.Commute.iterate_left (f := gaveWhole) (g := fun l => { l with hunt := h }) (gaveWhole_hunt h) n l

theorem isResetReply_eq_false {r : Reply} (h : ¬(r.kind = 0x02#8 ∧ r.status = .ok)) : isResetReply r = false := by
  rw [Bool.eq_false_iff]
  exact fun reset => h (by simpa [isResetReply] using reset)

theorem NoResetReply.endsNoReset {l : LinkUnit} (h : NoResetReply l) (o : Outgoing) : EndsNoReset o l :=
  fun _ _ _ hf _ => isResetReply_eq_false (h _ (by rw [hf]; exact List.mem_cons_self))

theorem NoResetReply.of_suffix {l m : LinkUnit} (h : NoResetReply l) (kept : m.filled <:+ l.filled) : NoResetReply m :=
  fun r hr => h r (kept.subset hr)

/-- A byte that the hunt goes on with, between exchanges (R149, R153). -/
theorem portEvent_byte_hunted {s : State} {b : Byte} {h : Hunt} (hr : s.pins.resetHeld = false)
    (hp : s.link.port = Port.idle) (hn : NoResetReply s.link) (hb : huntNext s.link.hunt b = some h) :
    portEvent s (.byte b) = { s with link := { gaveWhole s.link with hunt := h } } := by
  have requests := (gaveWhole_outboundOnly hp).requests
  rw [portEvent_byte_heard (h := h) (requests := s.link.requests) (overruns := []) (by rw [hp]; rfl)
    (outgoing_idle_empty hp) (hn.endsNoReset _), ← requests, heard_nil]
  intro bits
  rw [receiveByte_hunted (s := { s with link := { s.link with port := Port.idle, givenBits := bits } }) hr hb]
  exact congrArg (fun l => { s with link := l }) (heard_nil h _).symm

/-- Bytes that the hunt goes on with, begun between exchanges (R149, R153). -/
theorem bytes_hunted (bytes : List Byte) {s : State} {h : Hunt} (hr : s.pins.resetHeld = false)
    (hp : s.link.port = Port.idle) (hn : NoResetReply s.link) (hb : bytes.foldlM huntNext s.link.hunt = some h) :
    (bytes.map PortEvent.byte).foldl portEvent s
      = { s with link := { gaveWhole^[bytes.length] s.link with hunt := h } } := by
  induction bytes generalizing s with
  | nil =>
    cases hb
    rfl
  | cons b bytes ih =>
    rw [List.foldlM_cons] at hb
    obtain ⟨h1, hb1, hb⟩ := Option.bind_eq_some_iff.mp hb
    rw [List.map_cons, List.foldl_cons, portEvent_byte_hunted hr hp hn hb1]
    refine (ih (s := { s with link := { gaveWhole s.link with hunt := h1 } }) hr
      ((gaveWhole_outboundOnly hp).port.trans hp) (hn.of_suffix (gaveByte_filled _ _)) hb).trans ?_
    rw [iterate_gaveWhole_hunt, ← Function.iterate_succ_apply, List.length_cons]

/-- From the second length byte on the hunt keeps the frame's bytes up to its last payload byte (R149). -/
theorem foldlM_huntNext_body (rest : List Byte) {n : Nat} {kept : List Byte} (hne : rest ≠ [])
    (hl : kept.length + rest.length = n + 4) :
    rest.foldlM huntNext (.body n kept) = some (.check (kept ++ rest) none) := by
  induction rest generalizing kept with
  | nil => exact absurd rfl hne
  | cons b rest ih =>
    rw [List.length_cons] at hl
    rw [List.foldlM_cons, huntNext]
    cases rest with
    | nil =>
      rw [List.length_nil] at hl
      rw [if_neg (by omega)]
      rfl
    | cons c more =>
      rw [List.length_cons] at hl
      rw [if_pos (by omega)]
      refine (ih (List.cons_ne_nil c more) ?_).trans (by rw [List.append_assoc]; rfl)
      rw [List.length_append, List.length_singleton, List.length_cons]
      omega

/-- The length that the two length bytes of a frame spell (Table 9-1). -/
theorem afterLength_put16 {n : Nat} (h : n ≤ 1024) :
    afterLength (Byte.ofNat n) (Byte.ofNat (n / 256)) = .body n (put16 n) := by
  have length : (Byte.ofNat n).toNat + 256 * (Byte.ofNat (n / 256)).toNat = n := by
    simp only [Byte.ofNat, BitVec.toNat_ofNat]
    omega
  simp only [afterLength, length, Config.maxPayload, if_pos h]
  rfl

/-- The bytes of a frame up to its first CRC byte, taken from HUNT (R149, Table 9-1). -/
theorem foldlM_huntNext_frame (tag kind high : Byte) {payload : List Byte} (h : payload.length ≤ 1024) :
    (0xC3#8 :: frameCore tag kind payload ++ [high]).foldlM huntNext .hunt
      = some (.check (frameCore tag kind payload) (some high)) := by
  have body := foldlM_huntNext_body (n := payload.length) (kept := put16 payload.length) (tag :: kind :: payload)
    (List.cons_ne_nil _ _) (by simp [put16]; omega)
  have core : (0xC3#8 :: frameCore tag kind payload).foldlM huntNext .hunt
      = some (.check (frameCore tag kind payload) none) := by
    rw [← afterLength_put16 h] at body
    exact body
  rw [List.foldlM_append, core]
  rfl

/-! ### The judgement (R148, R149, R154) -/

theorem judge_bad {kept : List Byte} {high low : Byte} (h : 256 * high.toNat + low.toNat ≠ (crc16 kept).toNat) (s : State) :
    judge kept high low s = s :=
  if_neg (Ne.symm h)

theorem judge_good (tag kind : Byte) (payload : List Byte) (s : State) :
    judge (frameCore tag kind payload) (Byte.ofNat ((crc16 (frameCore tag kind payload)).toNat / 256))
        (Byte.ofNat (crc16 (frameCore tag kind payload)).toNat) s
      = arrive ⟨tag, kind, payload⟩ s := by
  have hc := (crc16 (frameCore tag kind payload)).isLt
  refine if_pos ?_
  simp only [Byte.ofNat, BitVec.toNat_ofNat]
  omega

/-- The second CRC byte of a frame, between exchanges, by what its judgement leaves (R149, R153). -/
theorem portEvent_byte_judged {s : State} {kept : List Byte} {high low : Byte} {requests : List RawRequest}
    {overruns : List Reply} (hr : s.pins.resetHeld = false) (hp : s.link.port = Port.idle) (hn : NoResetReply s.link)
    (hh : s.link.hunt = .check kept (some high))
    (judged : ∀ v : State, v.link.hunt = .hunt → v.link.requests = s.link.requests → v.link.reserved = s.link.reserved →
      v.link.filled = s.link.filled →
      judge kept high low v = { v with link := heard .hunt requests overruns v.link }) :
    portEvent s (.byte low) = { s with link := heard .hunt requests overruns (gaveWhole s.link) } := by
  refine portEvent_byte_heard (by rw [hp]; rfl) (outgoing_idle_empty hp) (hn.endsNoReset _) fun bits => ?_
  rw [receiveByte_judged (s := { s with link := { s.link with port := Port.idle, givenBits := bits } }) hr hh]
  exact judged _ rfl rfl rfl rfl

theorem iterate_gaveWhole_filled (n : Nat) (l : LinkUnit) : (gaveWhole^[n] l).filled <:+ l.filled := by
  induction n with
  | zero => exact List.suffix_rfl
  | succ n ih =>
    rw [Function.iterate_succ_apply']
    exact (gaveByte_filled _ _).trans ih

/-- The bytes of a frame from HUNT, between exchanges: they give as many bytes, and the frame is judged at its last one, beside
the places that are then FILLED (R149, R153). -/
theorem frame_judged {s : State} {tag kind high low : Byte} {payload : List Byte} {requests : List RawRequest}
    {overruns : List Reply} {m : LinkUnit} (hr : s.pins.resetHeld = false) (hh : s.link.hunt = .hunt)
    (hl : payload.length ≤ 1024) (hp : s.link.port = Port.idle) (hn : NoResetReply s.link)
    (hm : m = gaveWhole^[payload.length + 6] s.link.recordCleared)
    (judged : ∀ v : State, v.link.hunt = .hunt → v.link.requests = s.link.requests → v.link.reserved = s.link.reserved →
      v.link.filled = m.filled →
      judge (frameCore tag kind payload) high low v = { v with link := heard .hunt requests overruns v.link }) :
    portEvents (((0xC3#8 :: frameCore tag kind payload) ++ [high, low]).map .byte) s
      = { s with link := heard .hunt requests overruns (gaveWhole m) } := by
  have count : (0xC3#8 :: frameCore tag kind payload ++ [high]).length = payload.length + 6 := by
    simp [frameCore, put16]
  have walk : (0xC3#8 :: frameCore tag kind payload ++ [high]).foldlM huntNext s.link.hunt
      = some (.check (frameCore tag kind payload) (some high)) := by
    rw [hh]
    exact foldlM_huntNext_frame tag kind high hl
  have hunted := bytes_hunted (0xC3#8 :: frameCore tag kind payload ++ [high]) 
    (s := { s with link := s.link.recordCleared }) (h := .check (frameCore tag kind payload) (some high)) hr hp hn walk
  rw [count, ← hm] at hunted
  have beside : OutboundOnly s.link.recordCleared m := by
    rw [hm]
    exact iterate_gaveWhole_outboundOnly (l := s.link.recordCleared) hp _
  have kept : m.filled <:+ s.link.filled := by
    rw [hm]
    exact iterate_gaveWhole_filled _ s.link.recordCleared
  have last := portEvent_byte_judged
    (s := { s with link := { m with hunt := .check (frameCore tag kind payload) (some high) } }) (requests := requests)
    (overruns := overruns) hr (beside.port.trans hp) (hn.of_suffix kept) rfl
    (fun v hunt queue places filled =>
      judged v hunt (queue.trans beside.requests) (places.trans beside.reserved) filled)
  rw [gaveWhole_hunt, heard_hunt] at last
  have split : (0xC3#8 :: frameCore tag kind payload) ++ [high, low]
      = (0xC3#8 :: frameCore tag kind payload ++ [high]) ++ [low] := List.append_cons _ _ _
  rw [split, List.map_append, portEvents, List.foldl_append, clearGiven_eq, hunted, List.map_cons,
    List.map_nil, List.foldl_cons, List.foldl_nil]
  exact last

end Sys2Proof.Machine
end

section
/-! SUPPORT. Exchanges cut by a release of select, frames that arrive, and frames dropped, refused or abandoned (O4, O5; R147 to
R149, R153, R154). -/

namespace Sys2Proof.Machine

/-! ### Cut exchanges (R147) -/

/-- Clocks that leave their exchange unfinished: bits are taken, and as many given of the outbound byte (R147). -/
theorem clocks_go_on (bit : Bool) (bits : List Bool) {s : State} (h : s.link.port.bits.length + bits.length < 7) :
    ((bit :: bits).map PortEvent.clock).foldl portEvent s
      = { s with
          link :=
            { s.link with
              port := ⟨s.link.port.bits ++ bit :: bits, some (outgoing s.link)⟩
              givenBits :=
                s.link.givenBits
                  ++ ((bitsOfByte (outByte (outgoing s.link) s.link)).drop s.link.port.bits.length).take
                    (bits.length + 1) } } := by
  induction bits generalizing s bit with
  | nil =>
    rw [List.map_cons, List.map_nil, List.foldl_cons, List.foldl_nil, portEvent, clockBit_goes_on (by omega),
      bitsOfByte_drop _ (by omega)]
    rfl
  | cons next bits ih =>
    rw [List.length_cons] at h
    rw [List.map_cons, List.foldl_cons, portEvent, clockBit_goes_on (by omega), ih next (by
      simp only [List.length_append, List.length_singleton]
      omega)]
    simp only [outgoing, outByte, bitsOfByte_drop _ (show s.link.port.bits.length < 8 by omega), List.length_append,
      List.append_assoc, List.singleton_append, List.length_cons, List.length_nil, Nat.zero_add, List.take_succ_cons]

theorem bitsOfByte_take {n : Nat} (h : n < 8) (b : Byte) : (bitsOfByte b).take n = (List.range n).map b.getMsbD := by
  rw [bitsOfByte, ← List.map_take, List.take_range, Nat.min_eq_left h.le]

/-- The outbound byte of an exchange that begins between exchanges (R153). -/
theorem outByte_idle {l : LinkUnit} {x : Byte} (hp : l.port = Port.idle) (fill : l.filled = [] → x = 0x00#8)
    (reply : ∀ r rest, l.filled = r :: rest → (replyFrame r)[l.sent]? = some x) :
    outByte (outgoing l) l = x ∧ outgoing l = if l.filled = [] then .fill else .reply := by
  cases hf : l.filled with
  | nil =>
    rw [outgoing_idle_empty hp hf, fill hf]
    exact ⟨rfl, rfl⟩
  | cons r rest =>
    rw [outgoing_idle_reply hp hf, outByte_reply hf, List.getD_eq_getElem?_getD, reply r rest hf]
    exact ⟨rfl, rfl⟩

/-- Select released before the eighth clock (R147). -/
theorem cut_exchange {s : State} {bits : List Bool} {x : Byte} (hp : s.link.port = Port.idle) (h1 : 1 ≤ bits.length)
    (h8 : bits.length < 8) (fill : s.link.filled = [] → x = 0x00#8)
    (reply : ∀ r rest, s.link.filled = r :: rest → (replyFrame r)[s.link.sent]? = some x) :
    portEvents (bits.map .clock ++ [.release]) s
      = { s with
          link :=
            { s.link with
              port := ⟨[], some (if s.link.filled = [] then .fill else .reply)⟩
              givenBits := (List.range bits.length).map x.getMsbD
              given := [] } } := by
  obtain ⟨byte, out⟩ := outByte_idle hp fill reply
  obtain ⟨bit, bits, rfl⟩ := List.exists_cons_of_length_pos h1
  have none : s.link.port.bits = [] := by rw [hp]; rfl
  have clocked := clocks_go_on bit bits (s := clearGiven s) (by
    rw [show (clearGiven s).link.port.bits = [] from none]
    simp only [List.length_nil, List.length_cons] at *
    omega)
  rw [portEvents, List.foldl_append, clocked, List.foldl_cons, List.foldl_nil, portEvent, releaseSelect]
  rw [← out, ← byte, ← bitsOfByte_take h8]
  simp only [clearGiven, none, List.length_nil, List.drop_zero, List.nil_append]
  rfl

theorem portEvents_byte (b : Byte) (s : State) :
    portEvents [.byte b] s = portEvent { s with link := s.link.recordCleared } (.byte b) := by
  rw [portEvents, List.foldl_cons, List.foldl_nil, clearGiven_eq]

/-! ### One byte from HUNT (R149, R153) -/

/-- A byte that opens no frame leaves the receive side as it is (R149, R171). -/
theorem receiveByte_stays {s : State} {b : Byte} (hh : s.link.hunt = .hunt) (hb : b ≠ 0xC3#8) : receiveByte s b = s := by
  rw [receiveByte]
  split
  · rfl
  · rw [hh]
    simp only [huntByte, if_neg hb, withHunt]
    rw [← hh]

/-- A byte that opens no frame, by what its exchange gives (R149, R153). -/
theorem byte_outside_frame {s : State} {b : Byte} (hh : s.link.hunt = .hunt) (hb : b ≠ 0xC3#8)
    (bits : s.link.port.bits = []) (ho : s.link.filled = [] → outgoing s.link = .fill)
    (hn : EndsNoReset (outgoing s.link) s.link) :
    portEvents [.byte b] s = { s with link := gaveWhole s.link.recordCleared } := by
  have stays (v : List Bool) :
      receiveByte { s with link := { s.link.recordCleared with port := Port.idle, givenBits := v } } b
        = { s with
            link := heard s.link.hunt s.link.requests []
              { s.link.recordCleared with port := Port.idle, givenBits := v } } :=
    (receiveByte_stays (by exact hh) hb).trans (congrArg (fun l => { s with link := l }) (heard_self _).symm)
  rw [portEvents_byte, portEvent_byte_heard (s := { s with link := s.link.recordCleared }) bits ho hn stays]
  exact congrArg (fun l => { s with link := l }) (heard_gaveWhole s.link.recordCleared)

/-! ### Frames that arrive (R149, R154) -/

/-- What a frame's bytes give, at its last byte and before it (R153). -/
theorem frame_gave {s : State} (hp : s.link.port = Port.idle) (hw : PortWf s) (n : Nat) :
    ∃ m, m = gaveWhole^[n + 6] s.link.recordCleared ∧ Gave (n + 6) s.link m ∧ Gave (n + 7) s.link (gaveWhole m)
      ∧ OutboundOnly s.link (gaveWhole m) := by
  obtain ⟨-, empty, sent⟩ := hw
  have gave := iterate_gaveWhole_gave hp (fun h => (empty h).1) sent
  have after := gave (n + 7)
  have outbound := iterate_gaveWhole_outboundOnly (l := s.link.recordCleared) hp (n + 7)
  rw [Function.iterate_succ_apply'] at after outbound
  exact ⟨_, rfl, gave (n + 6), after, OutboundOnly.trans (b := s.link.recordCleared) rfl outbound⟩

theorem heard_queued {l : LinkUnit} (h : l.hunt = .hunt) (requests : List RawRequest) :
    heard .hunt requests [] l = { l with requests := requests } := by
  rw [heard, List.append_nil, ← h]

/-- A whole frame that finds room in the request queue, by its bytes (R149, R154). -/
theorem frame_queued {s : State} {tag kind : Byte} {payload : List Byte} {m : LinkUnit} (hr : s.pins.resetHeld = false)
    (hh : s.link.hunt = .hunt) (hl : payload.length ≤ 1024) (hp : s.link.port = Port.idle) (hn : NoResetReply s.link)
    (hm : m = gaveWhole^[payload.length + 6] s.link.recordCleared) (room : s.link.requests.length < 8) :
    portEvents ((frameBytes tag kind payload).map .byte) s
      = { s with link := heard .hunt (s.link.requests ++ [⟨tag, kind, payload⟩]) [] (gaveWhole m) } := by
  refine frame_judged hr hh hl hp hn hm fun v hunt queue _ _ => ?_
  rw [judge_good, arrive_queued (by rwa [queue]), heard_queued hunt, queue]

theorem OutboundOnly.queued {l m : LinkUnit} (h : OutboundOnly l m) (requests : List RawRequest) :
    { m with requests := requests }
      = { l with
          requests := requests
          filled := m.filled, sent := m.sent, givenBits := m.givenBits, given := m.given, lastSent := m.lastSent } :=
  congrArg (fun x : LinkUnit => { x with requests := requests }) h

theorem OutboundOnly.hunted {l m : LinkUnit} (h : OutboundOnly l m) (after : Hunt) :
    { m with hunt := after }
      = { l with
          hunt := after
          filled := m.filled, sent := m.sent, givenBits := m.givenBits, given := m.given, lastSent := m.lastSent } :=
  congrArg (fun x : LinkUnit => { x with hunt := after }) h

/-- Eight clocks are the byte they carry (R147). -/
theorem portEvents_clocks (b : Byte) (s : State) :
    portEvents ((List.range 8).map fun i => .clock (b.getMsbD i)) s = portEvents [.byte b] s := by
  have clocks : (List.range 8).map (fun i => PortEvent.clock (b.getMsbD i)) = (bitsOfByte b).map .clock := by
    rw [bitsOfByte, List.map_map]
    rfl
  rw [clocks, portEvents, portEvents, List.foldl_cons, List.foldl_nil, portEvent, List.foldl_map]
  simp only [portEvent]

/-- Settles O4: the frame by `frame_queued`, what is given by `frame_gave`, cut and single exchanges one by one. -/
theorem frameArrivesWhole : Obligations.FrameArrivesWhole := by
  refine ⟨fun s tag kind payload hr hh hl room hp hw hn => ?_, fun s b => ?_, fun s bits x hp h1 h8 fill reply => ?_,
    fun s b hh hb bits => ⟨fun out => ?_, fun r rest x out hf hx more => ?_⟩⟩
  · obtain ⟨m, hm, -, gave, outbound⟩ := frame_gave hp hw payload.length
    have queued := frame_queued (tag := tag) (kind := kind) hr hh hl hp hn hm room
    rw [heard_queued (outbound.hunt.trans hh)] at queued
    exact ⟨_, congrArg Host.Outcome.next queued, outbound.queued _, gave⟩
  · exact congrArg Host.Outcome.next (portEvents_clocks b s).symm
  · exact congrArg Host.Outcome.next (cut_exchange hp h1 h8 fill reply)
  · have fill : outgoing s.link = .fill := by
      rcases out with out | ⟨out, empty⟩
      · rw [outgoing, out]
      · rw [outgoing, out, empty]
        rfl
    have given := byte_outside_frame hh hb bits (fun _ => fill) fun _ _ ho _ _ => absurd (fill.symm.trans ho) (by decide)
    rw [gaveWhole_fill (l := s.link.recordCleared) fill] at given
    exact congrArg Host.Outcome.next given
  · have reply := outgoing_reply out hf
    have next : (replyFrame r).getD s.link.sent 0#8 = x := by
      rw [List.getD_eq_getElem?_getD, show (replyFrame r)[s.link.sent]? = some x from hx, Option.getD_some]
    have notLast : EndsNoReset (outgoing s.link) s.link := fun q others _ hq last => by
      cases hf.symm.trans hq
      exact absurd more (Nat.not_lt.mpr last)
    have given := byte_outside_frame hh hb bits (fun empty => by cases hf.symm.trans empty) notLast
    rw [gaveWhole_next (l := s.link.recordCleared) reply hf more] at given
    exact congrArg Host.Outcome.next (next ▸ given)

/-! ### Frames dropped, refused or abandoned (R149, R154) -/

/-- A frame whose CRC bytes are not its check value (R148, R149). -/
theorem frame_dropped {s : State} {tag kind high low : Byte} {payload : List Byte} {m : LinkUnit}
    (hr : s.pins.resetHeld = false) (hh : s.link.hunt = .hunt) (hl : payload.length ≤ 1024) (hp : s.link.port = Port.idle)
    (hn : NoResetReply s.link) (hm : m = gaveWhole^[payload.length + 6] s.link.recordCleared)
    (bad : 256 * high.toNat + low.toNat ≠ (crc16 (frameCore tag kind payload)).toNat) :
    portEvents (((0xC3#8 :: frameCore tag kind payload) ++ [high, low]).map .byte) s
      = { s with link := heard .hunt s.link.requests [] (gaveWhole m) } := by
  refine frame_judged hr hh hl hp hn hm fun v hunt queue _ _ => ?_
  rw [judge_bad bad, heard_queued hunt, ← queue]

/-- A whole frame at a full request queue with a place FREE at its last byte (R154). -/
theorem frame_overrun {s : State} {tag kind : Byte} {payload : List Byte} {m : LinkUnit} (hr : s.pins.resetHeld = false)
    (hh : s.link.hunt = .hunt) (hl : payload.length ≤ 1024) (hp : s.link.port = Port.idle) (hn : NoResetReply s.link)
    (hm : m = gaveWhole^[payload.length + 6] s.link.recordCleared) (full : s.link.requests.length = 8)
    (place : s.link.reserved + m.filled.length < 8) :
    portEvents ((frameBytes tag kind payload).map .byte) s
      = { s with link := heard .hunt s.link.requests [⟨tag, kind, .overrun, .none⟩] (gaveWhole m) } := by
  refine frame_judged hr hh hl hp hn hm fun v hunt queue places filled => ?_
  rw [judge_good, arrive_overrun (by rw [queue, full]) (by rwa [places, filled]), replied, heard, ← hunt, ← queue]

/-- A whole frame at a full request queue with no place FREE at its last byte (R154). -/
theorem frame_lost {s : State} {tag kind : Byte} {payload : List Byte} {m : LinkUnit} (hr : s.pins.resetHeld = false)
    (hh : s.link.hunt = .hunt) (hl : payload.length ≤ 1024) (hp : s.link.port = Port.idle) (hn : NoResetReply s.link)
    (hm : m = gaveWhole^[payload.length + 6] s.link.recordCleared) (full : s.link.requests.length = 8)
    (noPlace : 8 ≤ s.link.reserved + m.filled.length) :
    portEvents ((frameBytes tag kind payload).map .byte) s
      = { s with link := heard .hunt s.link.requests [] (gaveWhole m) } := by
  refine frame_judged hr hh hl hp hn hm fun v hunt queue places filled => ?_
  rw [judge_good, arrive_dropped (by rw [queue, full]) (by rwa [places, filled]), heard_queued hunt, ← queue]

theorem afterLength_abandoned {first second : Byte} (h : first.toNat + 256 * second.toNat > 1024) :
    afterLength first second
      = if first = 0xC3#8 then .length (some second) else if second = 0xC3#8 then .length none else .hunt :=
  if_neg (Nat.not_le.mpr h)

/-- A byte between frames or within one, but for a frame's last, by what its exchange gives (R149, R153). -/
theorem byte_hunted {s : State} {b : Byte} {h : Hunt} (hr : s.pins.resetHeld = false) (hp : s.link.port = Port.idle)
    (hn : NoResetReply s.link) (hb : huntNext s.link.hunt b = some h) :
    portEvents [.byte b] s = { s with link := { gaveWhole s.link.recordCleared with hunt := h } } := by
  rw [portEvents_byte]
  exact portEvent_byte_hunted (s := { s with link := s.link.recordCleared }) hr hp hn hb

/-- Settles O5: the frame's judgement by `frame_dropped`, `frame_overrun` and `frame_lost`, the length by `byte_hunted`. -/
theorem frameDroppedOrOverrun : Obligations.FrameDroppedOrOverrun := by
  refine ⟨fun s tag kind high low payload hr hh hl hp hw hn => ?_, fun s first second hr hh long hp hw hn => ?_⟩
  · obtain ⟨m, hm, before, gave, outbound⟩ := frame_gave hp hw payload.length
    have stays : heard .hunt s.link.requests [] (gaveWhole m) = gaveWhole m := by
      rw [← hh, ← outbound.hunt, ← outbound.requests, heard_self]
    refine ⟨m, gaveWhole m, before, gave, outbound, fun bad => congrArg Host.Outcome.next ?_,
      fun full place => congrArg Host.Outcome.next ?_, fun full noPlace => congrArg Host.Outcome.next ?_⟩
    · rw [frame_dropped hr hh hl hp hn hm bad, stays]
    · rw [frame_overrun hr hh hl hp hn hm full place, replied, heard, ← hh, ← outbound.hunt, ← outbound.requests]
    · rw [frame_lost hr hh hl hp hn hm full noPlace, stays]
  · obtain ⟨-, empty, sent⟩ := hw
    have gave := iterate_gaveWhole_gave hp (fun h => (empty h).1) sent 1
    have outbound : OutboundOnly s.link (gaveWhole s.link.recordCleared) :=
      OutboundOnly.trans (b := s.link.recordCleared) rfl (gaveWhole_outboundOnly hp)
    have taken := byte_hunted (b := second) hr hp hn (by rw [hh]; rfl)
    rw [afterLength_abandoned long] at taken
    exact ⟨_, congrArg Host.Outcome.next taken, gave, outbound.hunted _⟩

end Sys2Proof.Machine
end

section
/-! SUPPORT. REPLY_SENT: the low clocks of a reply's exchanges give what it still owes, and their inbound bytes may end frames
meanwhile; when ATTN is asserted (O8; R147, R149, R153, R162). -/

namespace Sys2Proof.Machine

/-! ### Low clocks (R147) -/

/-- A byte whose last bit is low opens no frame (R149). -/
theorem byteOfBits_low (bits : List Bool) : byteOfBits (bits ++ [false]) ≠ 0xC3#8 := by
  rw [byteOfBits, List.foldl_append]
  generalize bits.foldl _ _ = b
  intro h
  have low := congrArg (fun x : Byte => x.getLsbD 0) h
  simp at low

/-- The clocks that complete an exchange, its outbound byte's last bit among them (R147). -/
theorem clocks_complete (bits : List Bool) (last : Bool) {s : State} (h : s.link.port.bits.length + bits.length = 7) :
    ((bits ++ [last]).map PortEvent.clock).foldl portEvent s
      = exchange (outgoing s.link) (byteOfBits (s.link.port.bits ++ (bits ++ [last])))
        (noteBits ((bitsOfByte (outByte (outgoing s.link) s.link)).drop s.link.port.bits.length) s) := by
  rw [List.map_append, List.foldl_append, List.map_cons, List.map_nil, List.foldl_cons, List.foldl_nil, portEvent]
  cases bits with
  | nil =>
    have h7 : s.link.port.bits.length = 7 := h
    rw [List.map_nil, List.foldl_nil, clockBit_completes h7.ge, bitsOfByte_drop _ (by omega), h7]
    rfl
  | cons bit bits =>
    rw [List.length_cons] at h
    have seven : (s.link.port.bits ++ bit :: bits).length = 7 := by
      rw [List.length_append, List.length_cons]
      omega
    have rest : (bitsOfByte (outByte (outgoing s.link) s.link)).drop s.link.port.bits.length
        = ((bitsOfByte (outByte (outgoing s.link) s.link)).drop s.link.port.bits.length).take (bits.length + 1)
          ++ [(outByte (outgoing s.link) s.link).getMsbD 7] := by
      refine (List.take_append_drop (bits.length + 1) _).symm.trans ?_
      rw [List.drop_drop, h, bitsOfByte_drop _ (show 7 < 8 by decide)]
      rfl
    rw [clocks_go_on bit bits (by omega), clockBit_completes (by exact seven.ge)]
    conv_rhs => rw [rest]
    simp only [seven, List.append_assoc, noteBit, noteBits, List.cons_append]
    rfl

/-- The low clocks that complete an exchange carry a byte that opens no frame (R147, R149). -/
theorem low_clocks_complete {s : State} (h : s.link.port.bits.length < 8) :
    ∃ x, x ≠ 0xC3#8 ∧ (List.replicate (8 - s.link.port.bits.length) (PortEvent.clock false)).foldl portEvent s
      = exchange (outgoing s.link) x
        (noteBits ((bitsOfByte (outByte (outgoing s.link) s.link)).drop s.link.port.bits.length) s) := by
  refine ⟨byteOfBits (s.link.port.bits ++ (List.replicate (7 - s.link.port.bits.length) false ++ [false])), ?_, ?_⟩
  · rw [← List.append_assoc]
    exact byteOfBits_low _
  · rw [← clocks_complete _ _ (by rw [List.length_replicate]; omega), ← List.replicate_succ', List.map_replicate]
    congr 2
    omega

/-! ### What inbound bytes leave (R149, R154) -/

/-- The receive hunt, the request queue and the OVERRUNs behind the FILLED places, as bytes leave them that begin no frame: with
the hunt in HUNT or the part held in reset they stay (R149, R154, R171). -/
structure HeardFrom (s : State) (h : Hunt) (requests : List RawRequest) (overruns : List Reply) : Prop where
  queue : s.link.requests <+: requests
  refused : ∀ q ∈ overruns, q.status = .overrun
  quiet : s.link.hunt = .hunt ∨ s.pins.resetHeld = true → h = s.link.hunt ∧ requests = s.link.requests ∧ overruns = []

/-- A frame that arrives joins the queue, is refused with an OVERRUN, or is dropped (R154). -/
theorem arrive_heard (q : RawRequest) (s : State) :
    ∃ requests overruns, arrive q s = { s with link := heard s.link.hunt requests overruns s.link }
      ∧ s.link.requests <+: requests ∧ ∀ r ∈ overruns, r.status = .overrun := by
  rcases Nat.lt_or_ge s.link.requests.length 8 with room | full
  · refine ⟨s.link.requests ++ [q], [], ?_, ⟨[q], rfl⟩, by simp⟩
    rw [arrive_queued room, heard, List.append_nil]
  · rcases Nat.lt_or_ge (s.link.reserved + s.link.filled.length) 8 with place | noPlace
    · exact ⟨s.link.requests, [⟨q.tag, q.kind, .overrun, .none⟩], arrive_overrun full place q, ⟨[], List.append_nil _⟩,
        by simp⟩
    · exact ⟨s.link.requests, [], by rw [arrive_dropped full noPlace, heard_self], ⟨[], List.append_nil _⟩, by simp⟩

theorem huntNext_eq_none {h : Hunt} {b : Byte} (hn : huntNext h b = none) :
    ∃ kept high, h = .check kept (some high) := by
  cases h with
  | hunt => cases hn
  | length first => cases first <;> cases hn
  | body n kept => cases hn
  | check kept high =>
    cases high with
    | none => cases hn
    | some high => exact ⟨kept, high, rfl⟩

/-- One inbound byte that opens no frame (R149, R154). -/
theorem receiveByte_heard (s : State) {x : Byte} (hx : x ≠ 0xC3#8) :
    ∃ h requests overruns, receiveByte s x = { s with link := heard h requests overruns s.link }
      ∧ HeardFrom s h requests overruns := by
  by_cases quiet : s.link.hunt = .hunt ∨ s.pins.resetHeld = true
  · refine ⟨s.link.hunt, s.link.requests, [], ?_, ⟨[], List.append_nil _⟩, by simp, fun _ => ⟨rfl, rfl, rfl⟩⟩
    rw [heard_self]
    rcases quiet with hh | hr
    · exact receiveByte_stays hh hx
    · exact receiveByte_held hr x
  · have hr : s.pins.resetHeld = false := by
      by_contra h
      exact quiet (.inr (by simpa using h))
    cases hn : huntNext s.link.hunt x with
    | some h =>
      refine ⟨h, s.link.requests, [], ?_, ⟨[], List.append_nil _⟩, by simp, fun q => absurd q quiet⟩
      rw [receiveByte_hunted hr hn, heard_nil]
      rfl
    | none =>
      obtain ⟨kept, high, hc⟩ := huntNext_eq_none hn
      rw [receiveByte_judged hr hc]
      by_cases good : (crc16 kept).toNat = 256 * high.toNat + x.toNat
      · obtain ⟨requests, overruns, arrived, queue, refused⟩ := arrive_heard (requestOf kept) (withHunt .hunt s)
        refine ⟨.hunt, requests, overruns, ?_, queue, refused, fun q => absurd q quiet⟩
        rw [judge, if_pos good, arrived]
        rfl
      · refine ⟨.hunt, s.link.requests, [], ?_, ⟨[], List.append_nil _⟩, by simp, fun q => absurd q quiet⟩
        rw [judge, if_neg good, heard_nil]
        rfl

theorem HeardFrom.trans {s t : State} {h h' : Hunt} {requests requests' : List RawRequest} {overruns overruns' : List Reply}
    (first : HeardFrom s h requests overruns) (hunt : t.link.hunt = h) (queue : t.link.requests = requests)
    (pins : t.pins = s.pins) (second : HeardFrom t h' requests' overruns') :
    HeardFrom s h' requests' (overruns ++ overruns') := by
  subst hunt queue
  refine ⟨first.queue.trans second.queue, fun q hq => ?_, fun quiet => ?_⟩
  · rcases List.mem_append.mp hq with hq | hq
    · exact first.refused q hq
    · exact second.refused q hq
  · obtain ⟨h1, q1, o1⟩ := first.quiet quiet
    obtain ⟨h2, q2, o2⟩ := second.quiet (by rwa [h1, pins])
    exact ⟨h2.trans h1, q2.trans q1, by rw [o1, o2]; rfl⟩

/-! ### A reply's clocks (R153) -/

/-- The state after a reply has been given whole that is not a RESET's (R153). -/
def replyGiven (s : State) (h : Hunt) (requests : List RawRequest) (filled : List Reply) (frame given : List Byte)
    (bits : List Bool) : State :=
  { s with
    link :=
      { s.link with
        hunt := h
        requests := requests
        filled := filled
        port := Port.idle
        sent := 0
        givenBits := bits
        given := given
        lastSent := some frame } }

theorem LinkWork.replyGiven {s t : State} (work : LinkWork s t) (reserved : t.link.reserved = s.link.reserved)
    (awaits : t.link.resetAwaits = s.link.resetAwaits) (h : Hunt) (requests : List RawRequest) (filled : List Reply)
    (frame given : List Byte) (bits : List Bool) :
    replyGiven t h requests filled frame given bits = replyGiven s h requests filled frame given bits := by
  simp only [Machine.replyGiven, reserved, awaits]
  rw [work]

/-- An exchange while a reply stands first that is not a RESET's, by what its inbound byte leaves (R149, R153). -/
theorem exchange_reply_heard {s : State} {r : Reply} {rest : List Reply} (hf : s.link.filled = r :: rest)
    (hr : isResetReply r = false) {x : Byte} (hx : x ≠ 0xC3#8) (o : Outgoing) :
    ∃ h requests overruns, HeardFrom s h requests overruns
      ∧ exchange o x s
        = { s with link := heard h requests overruns (gaveByte o { s.link with port := Port.idle }) } := by
  obtain ⟨h, requests, overruns, received, ⟨queue, refused, quiet⟩⟩ :=
    receiveByte_heard { s with link := { s.link with port := Port.idle } } hx
  refine ⟨h, requests, overruns, ⟨queue, refused, quiet⟩, ?_⟩
  refine exchange_heard (fun empty => ?_) (fun q more _ hq _ => ?_) received
  · cases hf.symm.trans empty
  · cases hf.symm.trans hq
    exact hr

/-- A byte that is not the reply's last frees no place (R153). -/
theorem Sending.keeps_places {s : State} {r : Reply} {rest : List Reply} {b : Byte} {bs given : List Byte} {bits : List Bool}
    (h : Sending s r (b :: bs) given bits) (hf : s.link.filled = r :: rest) (hb : bs ≠ []) :
    (gaveByte (outgoing s.link) { s.link with port := Port.idle }).filled = r :: rest := by
  rcases h.next_byte with ⟨ho, -, -⟩ | ⟨ho, -, rfl⟩
  · rw [ho]
    exact hf
  · have more := Nat.lt_of_not_le (mt List.drop_eq_nil_of_le hb)
    rw [ho, gaveByte_next (l := { s.link with port := Port.idle }) hf more]
    exact hf

/-- The last byte of a reply frees its place (R153). -/
theorem Sending.frees_place {s : State} {r : Reply} {rest : List Reply} {b : Byte} {given : List Byte} {bits : List Bool}
    (h : Sending s r [b] given bits) (hf : s.link.filled = r :: rest) :
    gaveByte (outgoing s.link) { s.link with port := Port.idle }
      = { s.link with
          filled := rest
          port := Port.idle
          sent := 0
          givenBits := bits
          given := given ++ [b]
          lastSent := some (replyFrame r) } := by
  rcases h.next_byte with ⟨-, -, hn⟩ | ⟨ho, rfl, hn⟩
  · exact absurd (List.drop_eq_nil_iff.mp hn.symm) (Nat.not_le.mpr h.sent)
  · rw [ho, gaveByte_last (l := { s.link with port := Port.idle }) hf (List.drop_eq_nil_iff.mp hn.symm), ← h.given,
      ← h.givenBits]

/-- An exchange that is not the reply's last, by what its inbound byte leaves (R149, R153). -/
theorem Sending.goes_on {s : State} {r : Reply} {rest : List Reply} {b : Byte} {bs given : List Byte} {bits : List Bool}
    (h : Sending s r (b :: bs) given bits) (hf : s.link.filled = r :: rest) (hb : bs ≠ []) (hr : isResetReply r = false)
    {x : Byte} (hx : x ≠ 0xC3#8) {t : State} (ht : t = exchange (outgoing s.link) x s) :
    ∃ overruns, HeardFrom s t.link.hunt t.link.requests overruns ∧ t.link.filled = r :: (rest ++ overruns)
      ∧ t.link.reserved = s.link.reserved ∧ t.link.resetAwaits = s.link.resetAwaits := by
  obtain ⟨after, requests, overruns, heardFirst, exchanged⟩ := exchange_reply_heard hf hr hx (outgoing s.link)
  have outbound := gaveByte_outboundOnly (outgoing s.link) { s.link with port := Port.idle }
  have places := h.keeps_places hf hb
  rw [exchanged] at ht
  subst ht
  refine ⟨overruns, heardFirst, ?_, outbound.reserved, outbound.resetAwaits⟩
  simp only [heard, places, List.cons_append]

/-- Low clocks give what a reply still owes, byte after byte, and then free its place (R147, R153). -/
theorem clocks_give_reply {r : Reply} (hr : isResetReply r = false) {owed : List Byte} (ho : owed ≠ []) {s : State}
    {rest : List Reply} {given : List Byte} {bits : List Bool} (h : Sending s r owed given bits)
    (hf : s.link.filled = r :: rest) (hl : s.link.port.bits.length < 8) :
    ∃ after requests overruns, HeardFrom s after requests overruns
      ∧ (List.replicate (8 * owed.length - s.link.port.bits.length) (PortEvent.clock false)).foldl portEvent s
        = replyGiven s after requests (rest ++ overruns) (replyFrame r) (given ++ owed)
          (bits ++ (lineBits owed).drop s.link.port.bits.length) := by
  induction owed generalizing s rest given bits with
  | nil => exact absurd rfl ho
  | cons b bs ih =>
    obtain ⟨x, hx, first⟩ := low_clocks_complete hl
    have clocks : 8 * (b :: bs).length - s.link.port.bits.length = 8 - s.link.port.bits.length + 8 * bs.length := by
      rw [List.length_cons]
      omega
    have line : (lineBits (b :: bs)).drop s.link.port.bits.length
        = (bitsOfByte b).drop s.link.port.bits.length ++ lineBits bs := by
      rw [lineBits_cons, List.drop_append_of_le_length (by exact hl.le)]
    rw [clocks, List.replicate_add, List.foldl_append, first, h.outByte, line]
    generalize (bitsOfByte b).drop s.link.port.bits.length = more
    have noted : Sending (noteBits more s) r (b :: bs) given (bits ++ more) :=
      ⟨h.filled, h.owes, h.sent, h.given, congrArg (· ++ _) h.givenBits⟩
    by_cases hb : bs = []
    · subst hb
      obtain ⟨after, requests, overruns, ⟨queue, refused, quiet⟩, exchanged⟩ :=
        exchange_reply_heard (s := noteBits more s) hf hr hx (outgoing s.link)
      refine ⟨after, requests, overruns, ⟨queue, refused, quiet⟩, ?_⟩
      rw [List.length_nil, Nat.mul_zero, List.replicate_zero, List.foldl_nil, lineBits, List.map_nil, List.flatten_nil,
        List.append_nil, exchanged]
      exact congrArg (fun l => { s with link := heard after requests overruns l }) (noted.frees_place hf)
    · obtain ⟨t, ht⟩ : ∃ t, t = exchange (outgoing s.link) x (noteBits more s) := ⟨_, rfl⟩
      obtain ⟨work, port, next⟩ := noted.next hb x ht
      obtain ⟨overruns, ⟨queue, refused, quiet⟩, places, reserved, awaits⟩ := noted.goes_on hf hb hr hx ht
      have heardFirst : HeardFrom s t.link.hunt t.link.requests overruns := ⟨queue, refused, quiet⟩
      obtain ⟨after, requests, overruns', second, given'⟩ := ih hb next places (by rw [port]; decide)
      refine ⟨after, requests, overruns ++ overruns', heardFirst.trans rfl rfl work.pins second, ?_⟩
      have work' : LinkWork s t := LinkWork.trans (b := noteBits more s) rfl work
      rw [port, work'.replyGiven reserved awaits] at given'
      rw [← ht, ← List.append_assoc rest, ← List.append_assoc bits, List.append_cons given]
      exact given'

/-! ### The obligation -/

/-- REPLY_SENT over a reply that is not a RESET's (R147, R153). -/
theorem replySent_gives {s : State} {r : Reply} {rest : List Reply} (hf : s.link.filled = r :: rest)
    (hr : isResetReply r = false) (hw : PortWf s) :
    ∃ after requests overruns, HeardFrom s after requests overruns
      ∧ replySent s
        = replyGiven s after requests (rest ++ overruns) (replyFrame r) (owedBytes s.link r)
          ((lineBits (owedBytes s.link r)).drop s.link.port.bits.length) := by
  obtain ⟨bits, -, sent⟩ := hw
  have sending : Sending (clearGiven s) r (owedBytes s.link r) [] [] := ⟨⟨rest, hf⟩, rfl, sent r rest hf, rfl, rfl⟩
  have owes : owedBytes s.link r ≠ [] := fun he =>
    absurd (List.drop_eq_nil_iff.mp (List.append_eq_nil_iff.mp he).2) (Nat.not_le.mpr (sent r rest hf))
  obtain ⟨after, requests, overruns, ⟨queue, refused, quiet⟩, given⟩ := clocks_give_reply hr owes sending hf bits
  refine ⟨after, requests, overruns, ⟨queue, refused, quiet⟩, ?_⟩
  rw [replySent_clocks hf]
  exact given

/-- ATTN by the replies that wait and the notices in the buffer (R162). -/
theorem attn_iff (s : State) : State.attn s = true ↔ s.link.filled ≠ [] ∨ applied s 10 ≤ s.notices.buffer.length := by
  simp [State.attn, replyWaiting, noticeCount]

/-- Settles O8: the clocks of REPLY_SENT by `replySent_clocks`, what they give and take by `replySent_gives`. -/
theorem replySentFreesItsPlace : Obligations.ReplySentFreesItsPlace := by
  refine fun s => ⟨fun r rest frame owed hf hw hframe hOwed => ?_, fun hf => congrArg Host.Outcome.next ?_, attn_iff s⟩
  · subst hframe hOwed
    refine ⟨congrArg Host.Outcome.next (replySent_clocks hf), fun notReset => ?_⟩
    obtain ⟨after, requests, overruns, heardFrom, given⟩ := replySent_gives hf (isResetReply_eq_false notReset) hw
    exact ⟨after, requests, overruns, congrArg Host.Outcome.next given, heardFrom.quiet, heardFrom.queue,
      heardFrom.refused⟩
  · rw [replySent, hf]

end Sys2Proof.Machine
end

section
/-! SUPPORT. What READ_NOTICES and CLEAR_NOTICES answer and leave, and a posting by the room in the buffer (R157 to R161). -/

namespace Sys2Proof.Machine

/-! ### READ_NOTICES, CLEAR_NOTICES (R160, R161) -/

theorem exec_readNotices {s : State} (h : Ready s) (tag : Byte) (m : Nat) :
    exec (.readNotices tag m) s = .next (decided tag 0x08#8 (takeReadNotices m s)) :=
  congrArg Host.Outcome.next (present_ready h tag (.readNotices m))

theorem exec_clearNotices {s : State} (h : Ready s) (tag : Byte) :
    exec (.clearNotices tag) s = .next (decided tag 0x09#8 (takeClearNotices s)) :=
  congrArg Host.Outcome.next (present_ready h tag .clearNotices)

/-- The clamp to 1..16 of READ_NOTICES, case by case (R160). -/
theorem readLimit_eq (m : Nat) : max 1 (min m 16) = if m = 0 then 1 else if m > 16 then 16 else m := by
  split_ifs <;> omega

/-- READ_NOTICES with its clamped limit `k` takes the `k` oldest records and counts the rest (R160). -/
theorem takeReadNotices_eq {m k : Nat} (clamped : max 1 (min m 16) = k) (s : State) :
    takeReadNotices m s
      = ({ s with notices := { s.notices with buffer := s.notices.buffer.drop k } },
        .ok, .notices (s.notices.buffer.take k) (s.notices.buffer.length - k) s.notices.lost) := by
  rw [← List.length_drop, ← clamped]
  rfl

/-! ### Postings (R158, R159) -/

/-- The sequence number after 65535 is 0 (R158). -/
theorem nextSeq_wraps {n : Nat} (h : n < 65536) : (n + 1) % 65536 = if n = 65535 then 0 else n + 1 := by
  split_ifs <;> omega

/-- A posting that finds room is stored with the lost mark, which then clears (R159). -/
theorem postNotice_room {n : NoticeBuffer} (room : n.buffer.length < 64) (stamp : Option Nat) (b : NoticeBody) :
    postNotice stamp b n = ⟨n.buffer ++ [⟨n.nextSeq, n.lost, stamp, b⟩], (n.nextSeq + 1) % 65536, false⟩ :=
  if_pos room

/-- A posting that finds none is dropped and sets the lost mark (R159). -/
theorem postNotice_full {n : NoticeBuffer} (full : 64 ≤ n.buffer.length) (stamp : Option Nat) (b : NoticeBody) :
    postNotice stamp b n = ⟨n.buffer, (n.nextSeq + 1) % 65536, true⟩ :=
  if_neg (Nat.not_lt.mpr full)

/-- Settles O16: the two requests are decided at once, and a posting is stored or dropped by the room it finds. -/
theorem noticesAreReadAndCleared : Obligations.NoticesAreReadAndCleared := by
  refine ⟨fun s tag ready => ⟨fun m k clamp => ?read, exec_clearNotices ready tag⟩,
    fun s b seq bound next => ⟨fun room => ?stored, fun full => ?dropped⟩⟩
  case read =>
    have clamped : max 1 (min m 16) = k := (readLimit_eq m).trans clamp.symm
    rw [exec_readNotices ready, takeReadNotices_eq clamped, decided_eq]
  case stored => rw [post, postNotice_room room, nextSeq_wraps bound, next]
  case dropped => rw [post, postNotice_full full, nextSeq_wraps bound, next]

end Sys2Proof.Machine
end

section
/-! SUPPORT. What a step can do to the Settings Table: leave its values, store a clamped write, apply the pending values of a
class, or take the defaults (R163, R164, R166, R171). -/

namespace Sys2Proof.Machine

/-! ### What a step may do to the values -/

/-- The table's values after a step, from those before it. -/
inductive TableMove (a b : Settings) : Prop
  | kept (h : b.values = a.values)
  | stored (id value : Nat) (h : b.values = (storeSetting id (clampSetting id value) a).values)
  | applied (c : SettingClass) (h : b.values = (applyClass c a).values)
  | defaults (h : b.values = State.reset.settings.values)

theorem TableMove.of_eq {a b : Settings} (h : b = a) : TableMove a b := .kept (congrArg Settings.values h)

theorem TableMove.trans_eq {a b c : Settings} (h : TableMove a b) (same : c = b) : TableMove a c := same ▸ h

/-- A boundary applies its class, or nothing while hold keeps it (R166, R167). -/
theorem tableMove_boundary (c : SettingClass) (a : Settings) : TableMove a (applyBoundary c a) := by
  unfold applyBoundary
  split
  · exact .of_eq rfl
  · exact .applied c rfl

/-- A clamped value is one that the clamp keeps (R164). -/
theorem clampSetting_idem (id value : Nat) : clampSetting id (clampSetting id value) = clampSetting id value := by
  by_cases rounded : id ≤ 1
  · interval_cases id <;> simp only [clampSetting, settingRange, Nat.zero_le, Nat.le_refl, if_true] <;> omega
  · simp only [clampSetting, if_neg rounded]
    omega

/-! ### Values in range are kept -/

/-- The condition reads the table's values alone. -/
theorem SettingsInRange.of_values {s t : State} (h : SettingsInRange s) (same : t.settings.values = s.settings.values) :
    SettingsInRange t := by
  simp only [SettingsInRange, setting, same]
  exact h

/-- The setting written: a LIVE one takes the value at once, any other has it pending (R164). -/
theorem setting_storeSetting_same {id : Nat} {t : Settings} (place : id < t.values.length) (v : Nat) :
    setting (storeSetting id v t) id
      = if settingClass id = .live then ⟨v, none⟩ else ⟨(setting t id).applied, some v⟩ := by
  by_cases live : settingClass id = .live <;> simp [storeSetting, setting, live, place]

/-- A write stores a value that the clamp keeps, and leaves the other settings (R164). -/
theorem SettingsInRange.stored {s : State} (h : SettingsInRange s) (id value : Nat) :
    SettingsInRange { s with settings := storeSetting id (clampSetting id value) s.settings } := by
  obtain ⟨count, values⟩ := h
  refine ⟨List.length_set.trans count, fun k hk => ?_⟩
  by_cases same : k = id
  · subst same
    rw [setting_storeSetting_same (by omega)]
    split
    · exact ⟨clampSetting_idem k value, nofun, fun _ => rfl⟩
    · next bounded =>
      refine ⟨(values k hk).1, fun v hv => ?_, fun live => absurd live bounded⟩
      cases hv
      exact clampSetting_idem k value
  · rw [setting_storeSetting_other same]
    exact values k hk

/-- What a boundary applies was pending, and so stored by a write (R166). -/
theorem SettingsInRange.applied {s : State} (h : SettingsInRange s) (c : SettingClass) :
    SettingsInRange { s with settings := applyClass c s.settings } := by
  refine ⟨(mapFrom_length _ _ _).trans h.1, fun id hid => ?_⟩
  rw [setting_applyClass]
  split
  · exact ⟨clamp_applyPending h hid, nofun, fun _ => rfl⟩
  · exact h.2 id hid

theorem TableMove.inRange {s t : State} (h : TableMove s.settings t.settings) (hs : SettingsInRange s) : SettingsInRange t := by
  cases h with
  | kept h => exact hs.of_values h
  | stored id value h => exact (hs.stored id value).of_values h
  | applied c h => exact (hs.applied c).of_values h
  | defaults h => exact reset_settingsInRange.of_values h

/-! ### Requests -/

theorem StoreWork.settings {s t : State} (h : StoreWork s t) : t.settings = s.settings := by
  obtain ⟨st, rfl, -⟩ := h
  rfl

theorem takeFlowAppend_settings (slot : Nat) (l : List RunRecord) (s : State) :
    (takeFlowAppend slot l s).1.settings = s.settings := by
  unfold takeFlowAppend
  repeat' split
  all_goals rfl

theorem takeFlowClear_settings (slot : Nat) (s : State) : (takeFlowClear slot s).1.settings = s.settings := by
  unfold takeFlowClear
  simp only
  repeat' split
  all_goals rfl

theorem takeStyleDefine_settings (id : Nat) (f : StyleFields) (s : State) :
    (takeStyleDefine id f s).1.settings = s.settings := by
  unfold takeStyleDefine
  repeat' split
  all_goals rfl

theorem takeCompose_settings (f : ComposeFields) (s : State) : (takeCompose f s).1.settings = s.settings := by
  unfold takeCompose
  repeat' split
  all_goals rfl

theorem takeComposeAbort_settings (tag : Nat) (s : State) : (takeComposeAbort tag s).1.settings = s.settings := by
  unfold takeComposeAbort
  repeat' split
  all_goals rfl

theorem takeFrameRelease_settings (slot gen : Nat) (s : State) : (takeFrameRelease slot gen s).1.settings = s.settings := by
  unfold takeFrameRelease
  split <;> rfl

theorem takeNoteAdd_settings (f : NoteFields) (s : State) : (takeNoteAdd f s).1.settings = s.settings := by
  unfold takeNoteAdd
  repeat' split
  all_goals rfl

theorem takeNoteChange_settings (id : Nat) (c : NoteChanges) (s : State) :
    (takeNoteChange id c s).1.settings = s.settings := by
  unfold takeNoteChange
  simp only
  repeat' split
  all_goals rfl

theorem takeNoteRemove_settings (id : Nat) (s : State) : (takeNoteRemove id s).1.settings = s.settings := by
  unfold takeNoteRemove
  repeat' split
  all_goals rfl

theorem takeCommit_settings (mode cls : Nat) (rect : Option TileRect) (s : State) :
    (takeCommit mode cls rect s).1.settings = s.settings := by
  unfold takeCommit
  repeat' split
  all_goals rfl

theorem takeRefresh_settings (mode cls : Nat) (rect : Option TileRect) (s : State) :
    (takeRefresh mode cls rect s).1.settings = s.settings := by
  unfold takeRefresh
  repeat' split
  all_goals rfl

/-- A write is refused, or stores its clamped value (R164). -/
theorem takeSet_tableMove (id value : Nat) (s : State) : TableMove s.settings (takeSet id value s).1.settings := by
  unfold takeSet
  iterate 3 (split; · exact .of_eq rfl)
  exact .stored id value rfl

/-- An activation applies the STANDBY class (R169). -/
theorem takeActivate_tableMove (s : State) : TableMove s.settings (takeActivate s).1.settings := by
  unfold takeActivate
  split
  · exact .of_eq rfl
  · exact .applied .standby (by rw [activateStandby_settings])

/-- STANDBY changes the power state alone (R170). -/
theorem takeStandby_tableMove (s : State) : TableMove s.settings (takeStandby s).1.settings := by
  unfold takeStandby
  iterate 2 (split; · exact .of_eq rfl)
  exact .kept rfl

/-- SET stores and ACTIVATE applies; no other owner changes a value (Table 9-3). -/
theorem ownerState_tableMove (r : Request) (s : State) : TableMove s.settings (ownerState r s).settings := by
  cases r with
  | set id v => exact takeSet_tableMove id v s
  | activate => exact takeActivate_tableMove s
  | standby => exact takeStandby_tableMove s
  | flowAppend slot l => exact .of_eq (takeFlowAppend_settings slot l s)
  | flowClear slot => exact .of_eq (takeFlowClear_settings slot s)
  | styleDefine id f => exact .of_eq (takeStyleDefine_settings id f s)
  | fontBegin slot header => exact .of_eq (takeFontBegin_work slot header s).settings
  | glyphPut slot i l => exact .of_eq (takeGlyphPut_work slot i l s).settings
  | fontEnd slot => exact .of_eq (takeFontEnd_work slot s).settings
  | fontDrop slot => exact .of_eq (takeFontDrop_work slot s).settings
  | fontLock slot => exact .of_eq (takeFontLock_work slot s).settings
  | fontCheck slot => exact .of_eq (takeFontCheck_work slot s).settings
  | protectRaise b => exact .of_eq (takeProtectRaise_work b s).settings
  | storeWipe => exact .of_eq (takeStoreWipe_work s).settings
  | compose f => exact .of_eq (takeCompose_settings f s)
  | composeAbort t => exact .of_eq (takeComposeAbort_settings t s)
  | frameRelease slot gen => exact .of_eq (takeFrameRelease_settings slot gen s)
  | noteAdd n => exact .of_eq (takeNoteAdd_settings n s)
  | noteChange id c => exact .of_eq (takeNoteChange_settings id c s)
  | noteRemove id => exact .of_eq (takeNoteRemove_settings id s)
  | commit m c r => exact .of_eq (takeCommit_settings m c r s)
  | refresh m c r => exact .of_eq (takeRefresh_settings m c r s)
  | _ => exact .of_eq rfl

/-! ### Events -/

theorem RasterWork.settings {paper : Nat → Prop} {s t : State} (h : RasterWork paper s t) : t.settings = s.settings := by
  rw [h.rest]

theorem continueLatch_settings (c : CommitSpec) (next : Nat) (copied : List Nat) (deferred : Nat) (s : State) :
    (continueLatch c next copied deferred s).settings = s.settings := by
  unfold continueLatch
  split <;> rfl

theorem latchTile_settings (s : State) : (latchTile s).settings = s.settings := by
  unfold latchTile
  split
  · split
    · rfl
    · split <;> exact continueLatch_settings ..
  · rfl

/-- A retint job or a new compose job begins at a boundary of its class (R97, R166). -/
theorem rasterPathGrant_tableMove (s : State) : TableMove s.settings (rasterPathGrant s).settings := by
  unfold rasterPathGrant
  split
  · split
    · exact tableMove_boundary .jobBoundary s.settings
    · split
      · exact .of_eq (continueLatch_settings ..)
      · split
        · exact .of_eq rfl
        · split
          · exact tableMove_boundary .jobBoundary s.settings
          · exact .of_eq rfl
  · exact .of_eq rfl

theorem visitLane_settings (s : State) (lane : Nat) : (visitLane s lane).settings = s.settings := by
  unfold visitLane
  repeat' split
  all_goals rfl

/-- A scan begins at a boundary of its class (R125, R166). -/
theorem dispatchScan_tableMove (s : State) : TableMove s.settings (dispatchScan s).settings := by
  unfold dispatchScan
  split
  · exact List.foldlRecOn (motive := fun u : State => TableMove s.settings u.settings) _ visitLane
      (tableMove_boundary .dispatchBoundary s.settings) fun u hu lane _ => hu.trans_eq (visitLane_settings u lane)
  · exact .of_eq rfl

/-- The ends of store operations (R32 to R39). -/
theorem fontEnds_settings (s : State) :
    (fontEndComplete s).settings = s.settings ∧ (fontDropComplete s).settings = s.settings
      ∧ (fontLockComplete s).settings = s.settings ∧ (fontCheckComplete s).settings = s.settings
      ∧ (protectRaiseComplete s).settings = s.settings ∧ (storeWipeComplete s).settings = s.settings := by
  unfold fontEndComplete fontDropComplete fontLockComplete fontCheckComplete protectRaiseComplete storeWipeComplete
  simp only
  refine ⟨?_, ?_, ?_, ?_, ?_, ?_⟩ <;> repeat' split
  all_goals rfl

theorem panelFrameBoundary_settings (s : State) : (panelFrameBoundary s).settings = s.settings := by
  unfold panelFrameBoundary
  split <;> rfl

theorem laneFrame_settings (lane : Nat) (s : State) : (laneFrame lane s).settings = s.settings := by
  unfold laneFrame
  repeat' split
  all_goals rfl

theorem updateCompletion_settings (lane : Nat) (s : State) : (updateCompletion lane s).settings = s.settings := by
  unfold updateCompletion
  repeat' split
  all_goals rfl

theorem deghostExpiry_settings (s : State) : (deghostExpiry s).settings = s.settings := by
  unfold deghostExpiry
  split <;> rfl

theorem temperatureStale_settings (s : State) : (temperatureStale s).settings = s.settings := by
  unfold temperatureStale
  split <;> rfl

/-- The scan's end changes the power state alone (R172). -/
theorem startupScanEnd_tableMove (s : State) : TableMove s.settings (startupScanEnd s).settings := by
  unfold startupScanEnd
  split <;> exact .kept rfl

/-! ### The link -/

theorem handOver_tableMove (s : State) : TableMove s.settings (handOver s).settings :=
  handOver_keeps_blocks (P := fun u => TableMove s.settings u.settings) (fun hl h => h.trans_eq hl.settings)
    (fun r rest => ownerState_tableMove r { s with link := { s.link with requests := rest } }) (.of_eq rfl)

/-- At the port a RESET may take effect, and with it the defaults (R156, R171). -/
theorem portEvents_tableMove (l : List PortEvent) (s : State) : TableMove s.settings (portEvents l s).settings :=
  portEvents_keeps_blocks (P := fun u => TableMove s.settings u.settings) (fun hl h => h.trans_eq hl.settings)
    (fun _ _ => .defaults rfl) l (.of_eq rfl)

theorem replySent_tableMove (s : State) : TableMove s.settings (replySent s).settings := by
  unfold replySent
  split
  · exact .of_eq rfl
  · exact portEvents_tableMove _ s

/-! ### Steps -/

theorem eventState_tableMove (i : Instr) (s : State) : TableMove s.settings (eventState i s).settings := by
  have anyPaper : PaperDue (fun _ => True) s.comp := fun _ _ _ => trivial
  obtain ⟨fontEnd, fontDrop, fontLock, fontCheck, protectRaise, storeWipe⟩ := fontEnds_settings s
  cases i with
  | frameReceived l => exact portEvents_tableMove l s
  | abandonedFrame second => exact portEvents_tableMove [.byte second] s
  | handOver => exact handOver_tableMove s
  | replySent => exact replySent_tableMove s
  | resetPin => exact .defaults rfl
  | startupScanEnd => exact startupScanEnd_tableMove s
  | rasterPathGrant => exact rasterPathGrant_tableMove s
  | dispatchScan => exact dispatchScan_tableMove s
  | fontEndComplete => exact .of_eq fontEnd
  | fontDropComplete => exact .of_eq fontDrop
  | fontLockComplete => exact .of_eq fontLock
  | fontCheckComplete => exact .of_eq fontCheck
  | protectRaiseComplete => exact .of_eq protectRaise
  | storeWipeComplete => exact .of_eq storeWipe
  | writeEntryProgrammed => exact .of_eq (writeEntryProgrammed_work s).settings
  | replayEnd => exact .of_eq (replayEnd_rasterWork (paper := fun _ => True) s).settings
  | pagePaperFill => exact .of_eq (pagePaperFill_rasterWork (fun _ _ => trivial) anyPaper).settings
  | lineSet => exact .of_eq (lineSet_rasterWork (paper := fun _ => True) s).settings
  | glyphSpanDrawn => exact .of_eq (glyphSpanDrawn_rasterWork (paper := fun _ => True) s).settings
  | overlayLineDone => exact .of_eq (overlayLineDone_rasterWork (paper := fun _ => True) s).settings
  | retintLineRedrawn => exact .of_eq (retintLineRedrawn_rasterWork anyPaper).settings
  | latchTile => exact .of_eq (latchTile_settings s)
  | panelFrameBoundary => exact .of_eq (panelFrameBoundary_settings s)
  | laneFrame lane => exact .of_eq (laneFrame_settings lane s)
  | updateCompletion lane => exact .of_eq (updateCompletion_settings lane s)
  | deghostExpiry => exact .of_eq (deghostExpiry_settings s)
  | temperatureStale => exact .of_eq (temperatureStale_settings s)
  | _ => exact .of_eq rfl

theorem Stepped.tableMove {s t : State} (h : Stepped s t) : TableMove s.settings t.settings := by
  cases h with
  | idles => exact .of_eq (overlayOp_rasterWork (paper := fun _ => True) (tick s)).settings
  | presents tag r =>
    exact present_keeps_blocks (P := fun u => TableMove s.settings u.settings) (fun hl h => h.trans_eq hl.settings)
      (fun q => ownerState_tableMove q s) tag r (.of_eq rfl)
  | takes i => exact eventState_tableMove i s

/-- Settles O58: a step leaves the values, stores one that the clamp keeps, applies pending ones, or takes the defaults. -/
theorem settingsInRangeKept : Obligations.SettingsInRangeKept := by
  intro s t hs h
  obtain ⟨rest, stepped⟩ := step_stepped h
  exact stepped.tableMove.inRange hs

end Sys2Proof.Machine
end

section
/-! SUPPORT. What STANDBY and GET answer, and the five conditions that keep a part in ACTIVE (R165, R170). -/

namespace Sys2Proof.Machine

/-! ### STANDBY (R170) -/

theorem exec_standby {s : State} (h : Ready s) (tag : Byte) :
    exec (.standby tag) s = .next (decided tag 0x06#8 (takeStandby s)) :=
  congrArg Host.Outcome.next (present_ready h tag .standby)

/-! Each flag of the BUSY answer, by the condition that it stands for. -/

theorem standbyJobs_iff (s : State) : standbyJobs s = true ↔ s.comp.jobs ≠ [] ∨ s.comp.started ≠ none := by
  simp [standbyJobs, anyComposeJob, Option.isSome_iff_ne_none]

theorem standbyRetints_iff (s : State) : standbyRetints s = true ↔ s.comp.retints ≠ [] := by simp [standbyRetints]

theorem standbyCommit_iff (s : State) : standbyCommit s = true ↔ s.comp.commit ≠ .empty := by simp [standbyCommit]

theorem standbyQueue_iff (s : State) : standbyQueue s = true ↔ s.sched.queue ≠ [] := by simp [standbyQueue]

/-- A lane that is not FREE drives (R133). -/
theorem standbyLanes_iff (s : State) : standbyLanes s = true ↔ ∃ d, Lane.driving d ∈ s.lanes.lanes := by
  simp only [standbyLanes, busyLanes, decide_eq_true_eq, List.countP_pos_iff, bne_iff_ne]
  constructor
  · rintro ⟨x, mem, busy⟩
    cases x with
    | free => exact absurd rfl busy
    | driving d => exact ⟨d, mem⟩
  · rintro ⟨d, mem⟩
    exact ⟨_, mem, nofun⟩

theorem takeStandby_inactive {s : State} (h : s.settings.power ≠ .active) : takeStandby s = (s, .ok, .none) :=
  if_pos (by simpa using h)

theorem takeStandby_busy {s : State} (active : s.settings.power = .active) (busy : standbyRefused s = true) :
    takeStandby s
      = (s, .busy,
        .standbyBusy (standbyJobs s) (standbyRetints s) (standbyCommit s) (standbyQueue s) (standbyLanes s)) := by
  rw [takeStandby, if_neg (by simp [active]), if_pos busy]

theorem takeStandby_leaves {s : State} (active : s.settings.power = .active) (idle : standbyRefused s = false) :
    takeStandby s
      = ({ s with settings := { s.settings with power := .standby }, lanes := { s.lanes with scanDue := false } },
        .ok, .none) := by
  rw [takeStandby, if_neg (by simp [active]), if_neg (by simp [idle])]

/-- Settles O14: the five flags are those of the owner's check, which alone keeps an ACTIVE part in ACTIVE. -/
theorem standbyUnlessBusy : Obligations.StandbyUnlessBusy := by
  intro s tag jobs retints commit queue lanes hjobs hretints hcommit hqueue hlanes
  have same : ∀ {b c : Bool} {p : Prop}, (b = true ↔ p) → (c = true ↔ p) → b = c :=
    fun hb hc => Bool.eq_iff_iff.mpr (hb.trans hc.symm)
  obtain rfl := same hjobs (standbyJobs_iff s)
  obtain rfl := same hretints (standbyRetints_iff s)
  obtain rfl := same hcommit (standbyCommit_iff s)
  obtain rfl := same hqueue (standbyQueue_iff s)
  obtain rfl := same hlanes (standbyLanes_iff s)
  have ready : ReadyActive s → Ready s := fun h => ⟨h.1, by simp [h.2]⟩
  refine ⟨fun opened standby => ?_, fun active busy => ?_, fun active idle => ?_⟩
  · rw [exec_standby ⟨opened, by simp [standby]⟩, takeStandby_inactive (by simp [standby]), decided_eq]
  · rw [exec_standby (ready active), takeStandby_busy active.2 busy, decided_eq]
  · rw [exec_standby (ready active), takeStandby_leaves active.2 idle, decided_eq]

/-! ### GET (R163, R165) -/

theorem exec_get {s : State} (h : Ready s) (tag : Byte) (id : Nat) :
    exec (.get tag id) s = .next (decided tag 0x04#8 (takeGet id s)) :=
  congrArg Host.Outcome.next (present_ready h tag (.get id))

/-- During STARTING GET is refused as every request but STATUS is (R152). -/
theorem exec_get_starting {s : State} (opened : LinkOpen s) (starting : s.settings.power = .starting) (tag : Byte)
    (id : Nat) : exec (.get tag id) s = .next (replied tag 0x04#8 .starting .none s) :=
  congrArg Host.Outcome.next ((present_open opened tag (.get id)).trans
    (handKnown_starting starting (kindByte_ne_status (.get id) nofun) tag _))

/-- A pending value is HELD where hold is 1 and a boundary would apply it (R163, R167). -/
theorem settingState_eq (t : Settings) (id : Nat) :
    settingState t id
      = if (setting t id).pending = none then .applied
        else if 3 ≤ id ∧ id ≤ 6 ∧ (setting t 12).applied = 1 then .held else .awaiting := by
  have bounded : settingClass id = .jobBoundary ∨ settingClass id = .dispatchBoundary ↔ 3 ≤ id ∧ id ≤ 6 := by
    unfold settingClass
    split_ifs <;> simp <;> omega
  unfold settingState
  cases (setting t id).pending with
  | none => rfl
  | some v => simp [holding, bounded, ← and_assoc, and_comm]

/-- Settles O12: an id of Table 11-1 is reported with its class and state, any other refused. -/
theorem getReports : Obligations.GetReports := by
  intro s tag id opened
  refine ⟨fun started unknown => ?_, fun started known => ?_, fun starting => exec_get_starting opened starting tag id⟩
  · rw [exec_get ⟨opened, started⟩, takeGet, if_pos unknown, decided_eq]
  · rw [exec_get ⟨opened, started⟩, takeGet, if_neg (Nat.not_lt.mpr known), settingState_eq]
    rfl

end Sys2Proof.Machine
end

section
/-! SUPPORT. What a step runs where the queue of commands is not empty (the block's queue is the model's: log entry 4). -/

namespace Sys2Proof.Machine

/-- Settles O1: on a queue with a front command the branch of `step` that takes it off the queue is chosen, and both sides
are the same run of `exec` by definition. -/
theorem stepRunsFrontCommand : Obligations.StepRunsFrontCommand := by
  intro c rest s
  rfl

end Sys2Proof.Machine
end
